-- ==== Sys2Proof/Word.lean ====
section
/-! DEFINITION. The widths of the machine: bytes, words, register numbers. -/

namespace Sys2Proof

/-- An 8-bit value: a general register, a timer, a memory byte, the constant NN (10_state.md R20, R30). -/
abbrev Byte := BitVec 8

/-- A 16-bit value: an instruction word, PC, I, a return address (30_encoding.md R70, 10_state.md R23, R28). -/
abbrev Word := BitVec 16

/-- A general register's number, 0x0 to 0xF (10_state.md R20). -/
abbrev Reg := Fin 16

/-- VF, the register that is also the flag output (10_state.md R21). -/
abbrev VF : Reg := 15

/-- V0, the implicit offset register of BNNN (10_state.md R22). -/
abbrev V0 : Reg := 0

end Sys2Proof
end

