-- ==== Sys2Proof/Syntax.lean ====
section
/-! DEFINITION. The 34 instructions of 30_encoding.md R75, one constructor for each row of
spec/opcode_table.json. -/

namespace Sys2Proof

/-- An instruction with its operands as 30_encoding.md R74 assembles them: `nnn` an address
zero-extended to 16 bits, `nn` a byte, `n` a count of rows, `x` and `y` register numbers. -/
inductive Instr where
  /-- 00E0 `CLS` (R171). -/
  | cls
  /-- 00EE `RET` (R102). -/
  | ret
  /-- 1NNN `JP nnn` (R103). -/
  | jp (nnn : Word)
  /-- 2NNN `CALL nnn` (R104). -/
  | call (nnn : Word)
  /-- 3XNN `SE Vx, nn` (R105). -/
  | seImm (x : Reg) (nn : Byte)
  /-- 4XNN `SNE Vx, nn` (R106). -/
  | sneImm (x : Reg) (nn : Byte)
  /-- 5XY0 `SE Vx, Vy` (R107). -/
  | seReg (x y : Reg)
  /-- 6XNN `LD Vx, nn` (R131). -/
  | ldImm (x : Reg) (nn : Byte)
  /-- 7XNN `ADD Vx, nn` (R132). -/
  | addImm (x : Reg) (nn : Byte)
  /-- 8XY0 `LD Vx, Vy` (R133). -/
  | ldReg (x y : Reg)
  /-- 8XY1 `OR Vx, Vy` (R134). -/
  | orReg (x y : Reg)
  /-- 8XY2 `AND Vx, Vy` (R135). -/
  | andReg (x y : Reg)
  /-- 8XY3 `XOR Vx, Vy` (R136). -/
  | xorReg (x y : Reg)
  /-- 8XY4 `ADD Vx, Vy` (R137). -/
  | addReg (x y : Reg)
  /-- 8XY5 `SUB Vx, Vy` (R138). -/
  | sub (x y : Reg)
  /-- 8XY6 `SHR Vx, Vy` (R139). -/
  | shr (x y : Reg)
  /-- 8XY7 `SUBN Vx, Vy` (R140). -/
  | subn (x y : Reg)
  /-- 8XYE `SHL Vx, Vy` (R141). -/
  | shl (x y : Reg)
  /-- 9XY0 `SNE Vx, Vy` (R108). -/
  | sneReg (x y : Reg)
  /-- ANNN `LD I, nnn` (R210). -/
  | ldI (nnn : Word)
  /-- BNNN `JP V0, nnn` (R109). -/
  | jpV0 (nnn : Word)
  /-- CXNN `RND Vx, nn` (R142). -/
  | rnd (x : Reg) (nn : Byte)
  /-- DXYN `DRW Vx, Vy, n` (R172). -/
  | drw (x y : Reg) (n : Nat)
  /-- EX9E `SKP Vx` (R191). -/
  | skp (x : Reg)
  /-- EXA1 `SKNP Vx` (R192). -/
  | sknp (x : Reg)
  /-- FX07 `LD Vx, DT` (R193). -/
  | ldFromDt (x : Reg)
  /-- FX0A `LD Vx, K` (R196). -/
  | ldKey (x : Reg)
  /-- FX15 `LD DT, Vx` (R194). -/
  | ldToDt (x : Reg)
  /-- FX18 `LD ST, Vx` (R195). -/
  | ldToSt (x : Reg)
  /-- FX1E `ADD I, Vx` (R212). -/
  | addI (x : Reg)
  /-- FX29 `LD F, Vx` (R213). -/
  | ldFont (x : Reg)
  /-- FX33 `LD B, Vx` (R214). -/
  | ldBcd (x : Reg)
  /-- FX55 `LD [I], Vx` (R215). -/
  | storeRegs (x : Reg)
  /-- FX65 `LD Vx, [I]` (R216). -/
  | loadRegs (x : Reg)
  deriving DecidableEq, Repr

end Sys2Proof
end

