-- ==== Sys2Proof/WellFormed.lean ====
section
/-! DEFINITION. Which instruction terms a 16-bit word can hold: the two operand bounds that the types
of the other operands do not already give (30_encoding.md R73, R74). -/

namespace Sys2Proof

/-- NNN is a 12-bit address (30_encoding.md R74). -/
def addressFits (nnn : Word) : Bool := decide (nnn.toNat < 0x1000)

/-- N is a 4-bit count of sprite rows (30_encoding.md R74). -/
def rowCountFits (n : Nat) : Bool := decide (n < 16)

/-- The operands fit the instruction's encoding. -/
def Instr.wellFormed : Instr → Bool
  | .jp nnn | .call nnn | .ldI nnn | .jpV0 nnn => addressFits nnn
  | .drw _ _ n => rowCountFits n
  | .cls | .ret => true
  | .seImm _ _ | .sneImm _ _ | .ldImm _ _ | .addImm _ _ | .rnd _ _ => true
  | .seReg _ _ | .sneReg _ _ | .ldReg _ _ | .orReg _ _ | .andReg _ _ | .xorReg _ _ => true
  | .addReg _ _ | .sub _ _ | .shr _ _ | .subn _ _ | .shl _ _ => true
  | .skp _ | .sknp _ | .ldFromDt _ | .ldKey _ | .ldToDt _ | .ldToSt _ => true
  | .addI _ | .ldFont _ | .ldBcd _ | .storeRegs _ | .loadRegs _ => true

/-- `i` is an instruction that some word encodes. -/
abbrev Instr.WellFormed (i : Instr) : Prop := i.wellFormed = true

end Sys2Proof
end

