-- ==== Sys2Proof/Decode.lean ====
section
/-! DEFINITION. Fields, dispatch and encoding of an instruction word (30_encoding.md R72 to R82,
00_scope.md R13), and the opcode table of R75 as data. -/

namespace Sys2Proof

/-! ## Fields (00_scope.md R13) -/

/-- `category = w[15:12]`, the family. -/
def fieldCategory (w : Word) : Nat := (w.extractLsb' 12 4).toNat

/-- `X = w[11:8]`. -/
def fieldX (w : Word) : Reg := (w.extractLsb' 8 4).toFin

/-- `Y = w[7:4]`. -/
def fieldY (w : Word) : Reg := (w.extractLsb' 4 4).toFin

/-- `N = w[3:0]`. -/
def fieldN (w : Word) : Nat := (w.extractLsb' 0 4).toNat

/-- `NN = w[7:0]`. -/
def fieldNN (w : Word) : Byte := w.extractLsb' 0 8

/-- `NNN = w[11:0]`, zero-extended to 16 bits (30_encoding.md R74). -/
def fieldNNN (w : Word) : Word := (w.extractLsb' 0 12).setWidth 16

/-! ## Decoding -/

/-- Why a word is an unrecognized opcode (30_encoding.md R80): the family whose second level has no row for it. -/
inductive Unrecognized where
  /-- Family 0 and neither 00E0 nor 00EE (R76). -/
  | family0
  /-- Family 5 with low nibble not 0 (R76). -/
  | family5
  /-- Family 8 with N in 8..D or F (R77). -/
  | family8
  /-- Family 9 with low nibble not 0 (R76). -/
  | family9
  /-- Family E and neither EX9E nor EXA1 (R78). -/
  | familyE
  /-- Family F with an NN that has no row (R78). -/
  | familyF
  deriving DecidableEq, Repr

/-- Decoding any word succeeds: one of the 34 instructions or the unrecognized-opcode outcome (30_encoding.md R72). -/
inductive Decoded where
  | instr (i : Instr)
  | unrecognized (why : Unrecognized)
  deriving DecidableEq, Repr

/-- Family 0 (30_encoding.md R76): under `DISPATCH_STRICT` bits 11:8 must be 0, otherwise NN alone decides. -/
def decodeFamily0 (strict : Bool) (w : Word) : Decoded :=
  if strict = true ∧ fieldX w ≠ 0 then .unrecognized .family0
  else if fieldNN w = 0xE0 then .instr .cls
  else if fieldNN w = 0xEE then .instr .ret
  else .unrecognized .family0

/-- Families 5 and 9 (30_encoding.md R76): under `DISPATCH_STRICT` bits 3:0 must be 0, otherwise they are ignored. -/
def decodeXY0 (strict : Bool) (w : Word) (build : Reg → Reg → Instr) (why : Unrecognized) : Decoded :=
  if strict = true ∧ fieldN w ≠ 0 then .unrecognized why
  else .instr (build (fieldX w) (fieldY w))

/-- Family 8 dispatches on N (30_encoding.md R77). -/
def decodeFamily8 (w : Word) : Decoded :=
  let x := fieldX w
  let y := fieldY w
  match fieldN w with
  | 0x0 => .instr (.ldReg x y)
  | 0x1 => .instr (.orReg x y)
  | 0x2 => .instr (.andReg x y)
  | 0x3 => .instr (.xorReg x y)
  | 0x4 => .instr (.addReg x y)
  | 0x5 => .instr (.sub x y)
  | 0x6 => .instr (.shr x y)
  | 0x7 => .instr (.subn x y)
  | 0xE => .instr (.shl x y)
  | _ => .unrecognized .family8

/-- Family E dispatches on NN (30_encoding.md R78). -/
def decodeFamilyE (w : Word) : Decoded :=
  if fieldNN w = 0x9E then .instr (.skp (fieldX w))
  else if fieldNN w = 0xA1 then .instr (.sknp (fieldX w))
  else .unrecognized .familyE

/-- Family F dispatches on NN (30_encoding.md R78). -/
def decodeFamilyF (w : Word) : Decoded :=
  let x := fieldX w
  let nn := fieldNN w
  if nn = 0x07 then .instr (.ldFromDt x)
  else if nn = 0x0A then .instr (.ldKey x)
  else if nn = 0x15 then .instr (.ldToDt x)
  else if nn = 0x18 then .instr (.ldToSt x)
  else if nn = 0x1E then .instr (.addI x)
  else if nn = 0x29 then .instr (.ldFont x)
  else if nn = 0x33 then .instr (.ldBcd x)
  else if nn = 0x55 then .instr (.storeRegs x)
  else if nn = 0x65 then .instr (.loadRegs x)
  else .unrecognized .familyF

/-- Decoding of a word (30_encoding.md R72, R75): the top nibble selects a family, and families 0, 5, 8, 9, E
and F look at a second field. `strict` is `DISPATCH_STRICT`. -/
def decode (strict : Bool) (w : Word) : Decoded :=
  match fieldCategory w with
  | 0x0 => decodeFamily0 strict w
  | 0x1 => .instr (.jp (fieldNNN w))
  | 0x2 => .instr (.call (fieldNNN w))
  | 0x3 => .instr (.seImm (fieldX w) (fieldNN w))
  | 0x4 => .instr (.sneImm (fieldX w) (fieldNN w))
  | 0x5 => decodeXY0 strict w .seReg .family5
  | 0x6 => .instr (.ldImm (fieldX w) (fieldNN w))
  | 0x7 => .instr (.addImm (fieldX w) (fieldNN w))
  | 0x8 => decodeFamily8 w
  | 0x9 => decodeXY0 strict w .sneReg .family9
  | 0xA => .instr (.ldI (fieldNNN w))
  | 0xB => .instr (.jpV0 (fieldNNN w))
  | 0xC => .instr (.rnd (fieldX w) (fieldNN w))
  | 0xD => .instr (.drw (fieldX w) (fieldY w) (fieldN w))
  | 0xE => decodeFamilyE w
  | _ => decodeFamilyF w

/-- The word held by two bytes in memory order: big-endian, the first byte is bits 15:8 (20_memory.md R52). -/
def wordOfBytes (first second : Byte) : Word := first ++ second

/-- The decoder on two bytes in memory order. -/
def decodeBytes (strict : Bool) (first second : Byte) : Decoded := decode strict (wordOfBytes first second)

/-- The first byte that a word occupies in memory (20_memory.md R52). -/
def highByte (w : Word) : Byte := w.extractLsb' 8 8

/-- The second byte that a word occupies in memory (20_memory.md R52). -/
def lowByte (w : Word) : Byte := w.extractLsb' 0 8

/-- The word whose bits below `nbits` are those of `w` and whose other bits are 0. An instruction of this
machine has 16 bits (30_encoding.md R70), so `nbits` above 16 adds none. -/
def tableWord (nbits w : Nat) : Word := BitVec.ofNat 16 (w % 2 ^ nbits)

/-- The instruction this machine's decoder (`DISPATCH_STRICT` = true, 00_scope.md R8) reads from the two
bytes of a table word laid out as the hardware stores them. -/
def decodeTableWord (nbits w : Nat) : Option Instr :=
  match decodeBytes true (highByte (tableWord nbits w)) (lowByte (tableWord nbits w)) with
  | .instr i => some i
  | .unrecognized _ => none

/-! ## Encoding -/

/-- A word from its family nibble and its low twelve bits. -/
def assemble (family low : Nat) : Word := BitVec.ofNat 16 (family * 0x1000 + low)

/-- Format NNN (30_encoding.md R73). -/
def assembleNNN (family : Nat) (nnn : Word) : Word := assemble family (nnn.toNat % 0x1000)

/-- Format XNN (30_encoding.md R73). -/
def assembleXNN (family : Nat) (x : Reg) (nn : Byte) : Word := assemble family (x.val * 0x100 + nn.toNat)

/-- Formats XY0 and XYN (30_encoding.md R73). -/
def assembleXYN (family : Nat) (x y : Reg) (n : Nat) : Word :=
  assemble family (x.val * 0x100 + y.val * 0x10 + n % 0x10)

/-- The word of an instruction, from the encodings of 30_encoding.md R75. -/
def encode : Instr → Word
  | .cls => 0x00E0
  | .ret => 0x00EE
  | .jp nnn => assembleNNN 0x1 nnn
  | .call nnn => assembleNNN 0x2 nnn
  | .seImm x nn => assembleXNN 0x3 x nn
  | .sneImm x nn => assembleXNN 0x4 x nn
  | .seReg x y => assembleXYN 0x5 x y 0x0
  | .ldImm x nn => assembleXNN 0x6 x nn
  | .addImm x nn => assembleXNN 0x7 x nn
  | .ldReg x y => assembleXYN 0x8 x y 0x0
  | .orReg x y => assembleXYN 0x8 x y 0x1
  | .andReg x y => assembleXYN 0x8 x y 0x2
  | .xorReg x y => assembleXYN 0x8 x y 0x3
  | .addReg x y => assembleXYN 0x8 x y 0x4
  | .sub x y => assembleXYN 0x8 x y 0x5
  | .shr x y => assembleXYN 0x8 x y 0x6
  | .subn x y => assembleXYN 0x8 x y 0x7
  | .shl x y => assembleXYN 0x8 x y 0xE
  | .sneReg x y => assembleXYN 0x9 x y 0x0
  | .ldI nnn => assembleNNN 0xA nnn
  | .jpV0 nnn => assembleNNN 0xB nnn
  | .rnd x nn => assembleXNN 0xC x nn
  | .drw x y n => assembleXYN 0xD x y n
  | .skp x => assembleXNN 0xE x 0x9E
  | .sknp x => assembleXNN 0xE x 0xA1
  | .ldFromDt x => assembleXNN 0xF x 0x07
  | .ldKey x => assembleXNN 0xF x 0x0A
  | .ldToDt x => assembleXNN 0xF x 0x15
  | .ldToSt x => assembleXNN 0xF x 0x18
  | .addI x => assembleXNN 0xF x 0x1E
  | .ldFont x => assembleXNN 0xF x 0x29
  | .ldBcd x => assembleXNN 0xF x 0x33
  | .storeRegs x => assembleXNN 0xF x 0x55
  | .loadRegs x => assembleXNN 0xF x 0x65

/-! ## The opcode table (30_encoding.md R75, spec/opcode_table.json) -/

/-- One row: a word is this instruction exactly when `word &&& mask = pattern`, and `build` reads its operands. -/
structure OpcodeRow where
  mnemonic : String
  pattern : Word
  mask : Word
  build : Word → Instr

/-- The test a decoder makes for a row: `(op & mask) == match` (30_encoding.md R75). -/
abbrev OpcodeRow.Matches (r : OpcodeRow) (w : Word) : Prop := w &&& r.mask = r.pattern

/-- Rows of families 0 to 7 and 9 to D. -/
def opcodeRowsPlain : List OpcodeRow := [
  ⟨"CLS", 0x00E0, 0xFFFF, fun _ => .cls⟩,
  ⟨"RET", 0x00EE, 0xFFFF, fun _ => .ret⟩,
  ⟨"JP_nnn", 0x1000, 0xF000, fun w => .jp (fieldNNN w)⟩,
  ⟨"CALL_nnn", 0x2000, 0xF000, fun w => .call (fieldNNN w)⟩,
  ⟨"SE_Vx__nn", 0x3000, 0xF000, fun w => .seImm (fieldX w) (fieldNN w)⟩,
  ⟨"SNE_Vx__nn", 0x4000, 0xF000, fun w => .sneImm (fieldX w) (fieldNN w)⟩,
  ⟨"SE_Vx__Vy", 0x5000, 0xF00F, fun w => .seReg (fieldX w) (fieldY w)⟩,
  ⟨"LD_Vx__nn", 0x6000, 0xF000, fun w => .ldImm (fieldX w) (fieldNN w)⟩,
  ⟨"ADD_Vx__nn", 0x7000, 0xF000, fun w => .addImm (fieldX w) (fieldNN w)⟩,
  ⟨"SNE_Vx__Vy", 0x9000, 0xF00F, fun w => .sneReg (fieldX w) (fieldY w)⟩,
  ⟨"LD_I__nnn", 0xA000, 0xF000, fun w => .ldI (fieldNNN w)⟩,
  ⟨"JP_V0__nnn", 0xB000, 0xF000, fun w => .jpV0 (fieldNNN w)⟩,
  ⟨"RND_Vx__nn", 0xC000, 0xF000, fun w => .rnd (fieldX w) (fieldNN w)⟩,
  ⟨"DRW_Vx__Vy__n", 0xD000, 0xF000, fun w => .drw (fieldX w) (fieldY w) (fieldN w)⟩]

/-- Rows of family 8. -/
def opcodeRowsAlu : List OpcodeRow := [
  ⟨"LD_Vx__Vy", 0x8000, 0xF00F, fun w => .ldReg (fieldX w) (fieldY w)⟩,
  ⟨"OR_Vx__Vy", 0x8001, 0xF00F, fun w => .orReg (fieldX w) (fieldY w)⟩,
  ⟨"AND_Vx__Vy", 0x8002, 0xF00F, fun w => .andReg (fieldX w) (fieldY w)⟩,
  ⟨"XOR_Vx__Vy", 0x8003, 0xF00F, fun w => .xorReg (fieldX w) (fieldY w)⟩,
  ⟨"ADD_Vx__Vy", 0x8004, 0xF00F, fun w => .addReg (fieldX w) (fieldY w)⟩,
  ⟨"SUB_Vx__Vy", 0x8005, 0xF00F, fun w => .sub (fieldX w) (fieldY w)⟩,
  ⟨"SHR_Vx__Vy", 0x8006, 0xF00F, fun w => .shr (fieldX w) (fieldY w)⟩,
  ⟨"SUBN_Vx__Vy", 0x8007, 0xF00F, fun w => .subn (fieldX w) (fieldY w)⟩,
  ⟨"SHL_Vx__Vy", 0x800E, 0xF00F, fun w => .shl (fieldX w) (fieldY w)⟩]

/-- Rows of families E and F. -/
def opcodeRowsMisc : List OpcodeRow := [
  ⟨"SKP_Vx", 0xE09E, 0xF0FF, fun w => .skp (fieldX w)⟩,
  ⟨"SKNP_Vx", 0xE0A1, 0xF0FF, fun w => .sknp (fieldX w)⟩,
  ⟨"LD_Vx__DT", 0xF007, 0xF0FF, fun w => .ldFromDt (fieldX w)⟩,
  ⟨"LD_Vx__K", 0xF00A, 0xF0FF, fun w => .ldKey (fieldX w)⟩,
  ⟨"LD_DT__Vx", 0xF015, 0xF0FF, fun w => .ldToDt (fieldX w)⟩,
  ⟨"LD_ST__Vx", 0xF018, 0xF0FF, fun w => .ldToSt (fieldX w)⟩,
  ⟨"ADD_I__Vx", 0xF01E, 0xF0FF, fun w => .addI (fieldX w)⟩,
  ⟨"LD_F__Vx", 0xF029, 0xF0FF, fun w => .ldFont (fieldX w)⟩,
  ⟨"LD_B__Vx", 0xF033, 0xF0FF, fun w => .ldBcd (fieldX w)⟩,
  ⟨"LD__I___Vx", 0xF055, 0xF0FF, fun w => .storeRegs (fieldX w)⟩,
  ⟨"LD_Vx___I", 0xF065, 0xF0FF, fun w => .loadRegs (fieldX w)⟩]

/-- The 34 rows of 30_encoding.md R75, with `DISPATCH_STRICT` = true. -/
def opcodeRows : List OpcodeRow := opcodeRowsPlain ++ opcodeRowsAlu ++ opcodeRowsMisc

end Sys2Proof
end

