-- ==== Sys2Proof/Config.lean ====
section
/-! DEFINITION. The implementation parameters of 00_scope.md R8, and the free values that stand for
inputs the spec leaves unconstrained (the byte of CXNN, what a poll delivers). -/

namespace Sys2Proof

/-- `I_OVERFLOW`: what FX1E does with a sum above 4095 (44_index_memory.md R211). -/
inductive IOverflow where
  | wrap12
  | clamp12
  deriving DecidableEq, Repr

/-- `FONT_WRITE`: whether a data write to 0x000-0x04F faults (20_memory.md R56). -/
inductive FontWrite where
  | fault
  | allow
  deriving DecidableEq, Repr

/-- `KEY_INDEX`: what EX9E and EXA1 do when VX is above 0xF (43_keypad_timers.md R190). -/
inductive KeyIndex where
  | fault
  | mask4
  deriving DecidableEq, Repr

/-- The font: glyph d (d = 0x0 to 0xF) is five bytes, top row first (10_state.md R40). -/
abbrev Font := Vector (Vector Byte 5) 16

/-- The parameters of 00_scope.md R8 that a machine fixes and no instruction writes. -/
structure Config where
  /-- `STACK_DEPTH`. -/
  stackDepth : Nat
  /-- `IPS`, instructions per second; `IPF` follows from it. -/
  ips : Nat
  /-- `I_OVERFLOW`. -/
  iOverflow : IOverflow
  /-- `FONT_WRITE`. -/
  fontWrite : FontWrite
  /-- `QUIRK_SHIFT_VY`. -/
  quirkShiftVy : Bool
  /-- `QUIRK_LOGIC_VF_RESET`. -/
  quirkLogicVfReset : Bool
  /-- `DISPATCH_STRICT`. -/
  dispatchStrict : Bool
  /-- `KEY_INDEX`. -/
  keyIndex : KeyIndex
  /-- `INIT_FILL`. -/
  initFill : Byte
  /-- `FONT`. -/
  font : Font
  deriving DecidableEq, Repr

/-- `MEM_SIZE` = 4096 bytes (R8). -/
abbrev memSize : Nat := 0x1000

/-- `FONT_LEN` = 80 bytes at `FONT_BASE` = 0x000 (R8). -/
abbrev fontLen : Nat := 0x50

/-- `PROG_BASE` = 0x200 (R8). -/
abbrev progBase : Nat := 0x200

/-- `MAX_ROM` = 3584 bytes (R8). -/
abbrev maxRom : Nat := memSize - progBase

/-- `W` = 64 columns (R8). -/
abbrev screenWidth : Nat := 64

/-- `H` = 32 rows (R8). -/
abbrev screenHeight : Nat := 32

/-- The font of 10_state.md R40. PRESUMED by the spec itself (general knowledge, 92_eei_decisions.md D24):
the default of a parameter, on whose bytes no statement of this package rests (log entry 12). -/
def Config.defaultFont : Font := #v[
  #v[0xF0, 0x90, 0x90, 0x90, 0xF0],
  #v[0x20, 0x60, 0x20, 0x20, 0x70],
  #v[0xF0, 0x10, 0xF0, 0x80, 0xF0],
  #v[0xF0, 0x10, 0xF0, 0x10, 0xF0],
  #v[0x90, 0x90, 0xF0, 0x10, 0x10],
  #v[0xF0, 0x80, 0xF0, 0x10, 0xF0],
  #v[0xF0, 0x80, 0xF0, 0x90, 0xF0],
  #v[0xF0, 0x10, 0x20, 0x40, 0x40],
  #v[0xF0, 0x90, 0xF0, 0x90, 0xF0],
  #v[0xF0, 0x90, 0xF0, 0x10, 0xF0],
  #v[0xF0, 0x90, 0xF0, 0x90, 0x90],
  #v[0xE0, 0x90, 0xE0, 0x90, 0xE0],
  #v[0xF0, 0x80, 0x80, 0x80, 0xF0],
  #v[0xE0, 0x90, 0x90, 0x90, 0xE0],
  #v[0xF0, 0x80, 0xF0, 0x80, 0xF0],
  #v[0xF0, 0x80, 0xF0, 0x80, 0x80]]

/-- This hardware's defaults (00_scope.md R8). -/
def Config.default : Config where
  stackDepth := 16
  ips := 700
  iOverflow := .wrap12
  fontWrite := .fault
  quirkShiftVy := false
  quirkLogicVfReset := false
  dispatchStrict := true
  keyIndex := .fault
  initFill := 0x00
  font := Config.defaultFont

/-- The keypad: key k is pressed when entry k is true (10_state.md R31). -/
abbrev Keypad := Vector Bool 16

/-- What one poll of the input delivers (60_exceptions.md R244, R254): the new keypad, how many
pause toggles came in, and whether a quit came in. -/
structure Poll where
  keys : Keypad
  pauseToggles : Nat
  quit : Bool
  deriving DecidableEq, Repr, Inhabited

/-- FREE VALUE: the byte that the `k`-th CXNN draws when the host has queued none
(41_alu.md R142, 93_implementation_defined.md U9). No body: nothing can be proved of its value. -/
opaque Config.freeByte : Nat → Byte

/-- FREE VALUE: what the `k`-th poll delivers when the host has queued none
(60_exceptions.md R244, 93_implementation_defined.md U24). No body: nothing can be proved of its value. -/
opaque Config.freePoll : Nat → Poll

end Sys2Proof
end

