-- ==== Sys2Proof/Machine/State.lean ====
section
/-! DEFINITION. The machine's state as plain data (10_state.md), why a step can stop, and the state after reset. -/

namespace Sys2Proof.Machine

/-- Why the model stops with `Host.Outcome.fault`. The faults of the spec (60_exceptions.md R230) are not
here: taking one is a next state with the fault status written (R231). -/
inductive Fault where
  /-- Raised by CALL and RET when SP points at a call-stack slot that State does not hold. The spec's machine has
  a slot for every SP below STACK_DEPTH (10_state.md R29), so no state that `State.Inv` allows raises it. Safe. -/
  | noSuchStackSlot
  deriving DecidableEq, Repr

/-- Why the model refuses. -/
inductive Refusal where
  /-- Raised by an arm of `exec` whose instruction has no meaning yet. Safe. No arm does. -/
  | notModelled (mnemonic : String)
  /-- Raised by `boot` when the host reports that its own setup failed (60_exceptions.md R239). Safe. -/
  | initializationFailure
  /-- Raised by `boot` when the ROM image is missing, unreadable or longer than MAX_ROM
  (70_reset_and_hazards.md R273). Safe. -/
  | romLoadFailure
  /-- Raised by `boot` and at the start of a frame's batch when IPF = 0 (60_exceptions.md R247: "a configuration
  with IPF = 0 is refused"). Safe. -/
  | ipfZero
  deriving DecidableEq, Repr

/-- RS, the run state (10_state.md R33). -/
inductive RunState where
  | running
  | paused
  | quit
  | faulted
  deriving DecidableEq, Repr

/-- FAULT, the fault kinds of 60_exceptions.md R230. -/
inductive FaultCode where
  | none
  | decodeFault
  | stackOverflow
  | stackUnderflow
  | memoryFault
  | keyIndexFault
  deriving DecidableEq, Repr

/-- Where the frame scheduler stands (60_exceptions.md R245). DEDUCED: the scheduler's own place in its loop. -/
inductive Phase where
  /-- The next step polls the input and so starts a frame. -/
  | poll
  /-- `left` instruction slots of this frame's batch are still to run. With 0 left the next step ends the frame. -/
  | batch (left : Nat)
  deriving DecidableEq, Repr

/-- The display buffer D: D[y][x], row 0 at the top, column 0 at the left (42_display.md R170, 10_state.md R32). -/
abbrev Display := Vector (Vector Bool 64) 32

/-- A display with every cell false. -/
def Display.clear : Display := Vector.replicate 32 (Vector.replicate 64 false)

/-- The whole machine (10_state.md R38, R39), its place in the frame, and the model's own fields for inputs and outputs. -/
structure State where
  /-- The parameters of 00_scope.md R8. MODEL'S OWN field: no step writes it (log entry 1). -/
  cfg : Config
  /-- V0..VF (R20). -/
  v : Vector Byte 16
  /-- I (R28). -/
  i : Word
  /-- PC (R23). -/
  pc : Word
  /-- SP, the number of call-stack entries in use (R29). -/
  sp : Nat
  /-- S[0..STACK_DEPTH-1] (R29). -/
  slots : List Word
  /-- DT (R30). -/
  dt : Byte
  /-- ST (R30). -/
  st : Byte
  /-- K[0x0..0xF] (R31). -/
  keys : Keypad
  /-- D (R32). -/
  display : Display
  /-- RS (R33). -/
  rs : RunState
  /-- FAULT (R34). -/
  fault : FaultCode
  /-- FAULT_PC (R34). -/
  faultPc : Word
  /-- FAULT_INFO (R34). -/
  faultInfo : Word
  /-- Memory (R37): the bytes that differ from what reset leaves with no ROM image, by rising address. -/
  mem : List Host.Cell
  /-- The scheduler's place in the frame (60_exceptions.md R245; log entry 2). -/
  phase : Phase
  /-- MODEL'S OWN field: what the host has already decided that the coming polls deliver (log entry 3). -/
  polls : List Poll
  /-- MODEL'S OWN field: how many polls have happened (log entry 3). -/
  pollCount : Nat
  /-- MODEL'S OWN field: the bytes the host has already decided that the coming CXNN draw (log entry 4). -/
  rnd : List Byte
  /-- MODEL'S OWN field: how many bytes have been drawn (log entry 4). -/
  drawCount : Nat
  /-- MODEL'S OWN field: the display last handed to the renderer (output `display` of R254; log entry 5). -/
  shown : Option Display
  /-- MODEL'S OWN field: how often the display was handed to the renderer (log entry 5). -/
  renders : Nat
  deriving DecidableEq, Repr

/-- The state after reset with an empty ROM image and the parameters `cfg` (10_state.md R39,
70_reset_and_hazards.md R270). The model's own fields hold DESIGN CHOICE values (log entries 3, 4, 5). -/
def State.resetWith (cfg : Config) : State where
  cfg := cfg
  v := Vector.replicate 16 0
  i := 0
  pc := BitVec.ofNat 16 progBase
  sp := 0
  slots := List.replicate cfg.stackDepth 0
  dt := 0
  st := 0
  keys := Vector.replicate 16 false
  display := Display.clear
  rs := .running
  fault := .none
  faultPc := 0
  faultInfo := 0
  mem := []
  phase := .poll
  polls := []
  pollCount := 0
  rnd := []
  drawCount := 0
  shown := Option.none
  renders := 0

/-- The machine right after reset: this hardware's parameters, no ROM image (log entry 6). -/
def State.reset : State := State.resetWith Config.default

end Sys2Proof.Machine
end

