-- ==== Sys2Proof/Machine/Ops.lean ====
section
/-! DEFINITION. The named operations the meanings share: configuration, memory, registers, the call stack,
the random input, and taking a fault. -/

namespace Sys2Proof

/-- `IPF` = floor(IPS / 60), the instructions of one frame's batch (60_exceptions.md R247). -/
def Config.ipf (c : Config) : Nat := c.ips / 60

/-- The byte at address `a` after reset with no ROM image: the font at 0x000-0x04F, `INIT_FILL`
elsewhere (10_state.md R37, R40). It is what an address that memory does not list reads as. -/
def Config.resetByte (c : Config) (a : Nat) : Byte :=
  if h : a < fontLen then
    (c.font[a / 5]'(by unfold fontLen at h; omega))[a % 5]'(Nat.mod_lt a (by decide))
  else c.initFill

end Sys2Proof

namespace Sys2Proof.Machine

/-- The numeric codes of 60_exceptions.md R230. -/
def FaultCode.code : FaultCode → Nat
  | .none => 0
  | .decodeFault => 1
  | .stackOverflow => 2
  | .stackUnderflow => 3
  | .memoryFault => 4
  | .keyIndexFault => 5

/-! ## Memory as a canonical list of cells

`d` is what an unlisted address reads as. -/

/-- The byte at `a`: the listed one, else `d a`. -/
def Memory.read (d : Nat → Byte) : List Host.Cell → Nat → Byte
  | [], a => d a
  | (k, b) :: m, a => if k = a then b else Memory.read d m a

/-- Put the cell `(a, b)` in its place by address, replacing a cell at `a`. -/
def Memory.insert : List Host.Cell → Nat → Byte → List Host.Cell
  | [], a, b => [(a, b)]
  | (k, c) :: m, a, b =>
    if a < k then (a, b) :: (k, c) :: m
    else if k = a then (a, b) :: m
    else (k, c) :: Memory.insert m a b

/-- Take every cell at `a` away. -/
def Memory.erase (m : List Host.Cell) (a : Nat) : List Host.Cell :=
  m.filter (fun c => decide (c.1 ≠ a))

/-- Write `b` at `a`, keeping the canonical form: a byte equal to what the address reads as unlisted is not listed. -/
def Memory.write (d : Nat → Byte) (m : List Host.Cell) (a : Nat) (b : Byte) : List Host.Cell :=
  if b = d a then Memory.erase m a else Memory.insert m a b

/-- The canonical form: addresses strictly rising and below MEM_SIZE, no cell equal to what its address reads as unlisted. -/
def Memory.wf (d : Nat → Byte) (m : List Host.Cell) : Bool :=
  decide (m.Pairwise (fun c c' => c.1 < c'.1)) && m.all (fun c => decide (c.1 < memSize) && decide (c.2 ≠ d c.1))

/-! ## Registers and memory of the state -/

/-- `V[x]` (00_scope.md R11). No register is hardwired (10_state.md R20). -/
def State.reg (s : State) (x : Reg) : Byte := s.v[x]

/-- `V[x] <- b`. -/
def State.setReg (s : State) (x : Reg) (b : Byte) : State := { s with v := s.v.set x b }

/-- The whole register file at once (44_index_memory.md R216). -/
def State.setRegs (s : State) (vs : Vector Byte 16) : State := { s with v := vs }

/-- `PC <- w`. -/
def State.setPc (s : State) (w : Word) : State := { s with pc := w }

/-- `I <- w`. -/
def State.setI (s : State) (w : Word) : State := { s with i := w }

/-- `DT <- b`. -/
def State.setDt (s : State) (b : Byte) : State := { s with dt := b }

/-- `ST <- b`. -/
def State.setSt (s : State) (b : Byte) : State := { s with st := b }

/-- `D <- d`. -/
def State.setDisplay (s : State) (d : Display) : State := { s with display := d }

/-- The byte of Memory at address `a`, below MEM_SIZE. -/
def State.readByte (s : State) (a : Nat) : Byte := Memory.read s.cfg.resetByte s.mem a

/-- `Memory[a] <- b`, with no check. -/
def State.writeByte (s : State) (a : Nat) (b : Byte) : State :=
  { s with mem := Memory.write s.cfg.resetByte s.mem a b }

/-- Write the bytes at `a`, `a + 1`, ... in order, with no check. -/
def State.storeBytes (s : State) (a : Nat) : List Byte → State
  | [] => s
  | b :: bs => (s.writeByte a b).storeBytes (a + 1) bs

/-! ## Address checks (20_memory.md R55, R56, R57) -/

/-- MemRead fails above 0xFFF (R55). -/
def readFails (a : Nat) : Bool := decide (0xFFF < a)

/-- MemWrite fails above 0xFFF, and at or below 0x04F when `FONT_WRITE` = fault (R56). -/
def writeFails (fontWrite : FontWrite) (a : Nat) : Bool :=
  decide (0xFFF < a) || (decide (a ≤ 0x04F) && decide (fontWrite = .fault))

/-- The lowest address of `base, ..., base + count - 1` that may not be read (R57). -/
def firstBadRead (base count : Nat) : Option Nat := (List.range' base count).find? readFails

/-- The lowest address of `base, ..., base + count - 1` that may not be written (R57). -/
def firstBadWrite (fontWrite : FontWrite) (base count : Nat) : Option Nat :=
  (List.range' base count).find? (writeFails fontWrite)

/-! ## The call stack (40_control.md R110) -/

/-- `S[SP] <- w; SP <- SP + 1`. -/
def State.push (s : State) (w : Word) : State := { s with slots := s.slots.set s.sp w, sp := s.sp + 1 }

/-- `SP <- SP - 1`. The popped slot keeps its value (40_control.md R102). -/
def State.pop (s : State) : State := { s with sp := s.sp - 1 }

/-- `S[SP - 1]`, the top of the call stack when SP > 0, where State holds that slot. -/
def State.topSlot (s : State) : Option Word := s.slots[s.sp - 1]?

/-! ## The random input (60_exceptions.md R261) -/

/-- The byte `draw_byte()` returns: the next one the host has queued, else a free value (log entry 4). -/
def State.drawnByte (s : State) : Byte :=
  match s.rnd with
  | b :: _ => b
  | [] => Config.freeByte s.drawCount

/-- The state after one draw: the input is consumed. -/
def State.afterDraw (s : State) : State := { s with rnd := s.rnd.tail, drawCount := s.drawCount + 1 }

/-! ## Taking a fault (60_exceptions.md R231)

There is no return beside it: FAULTED is terminal, no handler runs (R235). -/

/-- Fault entry: FAULT, FAULT_PC, FAULT_INFO are recorded and RS becomes FAULTED. Nothing else changes. -/
def State.enterFault (s : State) (code : FaultCode) (addr info : Word) : State :=
  { s with fault := code, faultPc := addr, faultInfo := info, rs := .faulted }

/-- `raise F(info)` in the execute phase: PC is a + 2 there (10_state.md R23), so the instruction's address a is PC - 2. -/
def State.raise (s : State) (code : FaultCode) (info : Word) : State := s.enterFault code (s.pc - 2) info

/-- `raise MemoryFault(a)`: FAULT_INFO is 16 bits (10_state.md R34). -/
def State.raiseMemory (s : State) (a : Nat) : State := s.raise .memoryFault (BitVec.ofNat 16 a)

end Sys2Proof.Machine
end

