-- ==== Sys2Proof/Machine/Flags.lean ====
section
/-! DEFINITION. The flag values of the ALU (41_alu.md R130) and how an instruction writes VX and then VF (00_scope.md R12). -/

namespace Sys2Proof.Machine

/-- A flag as VF holds it: 1 or 0. -/
def flagByte (b : Bool) : Byte := if b then 1 else 0

/-- Carry: 1 exactly when the unbounded sum exceeds 255 (R130, R137). -/
def carryOut (vx vy : Byte) : Bool := decide (255 < vx.toNat + vy.toNat)

/-- No borrow: 1 exactly when minuend ≥ subtrahend (R130, R138, R140). -/
def noBorrow (minuend subtrahend : Byte) : Bool := decide (subtrahend.toNat ≤ minuend.toNat)

/-- The bit a right shift by one drops (R139). -/
def shiftedOutRight (b : Byte) : Bool := b.getLsbD 0

/-- The bit a left shift by one drops (R141). -/
def shiftedOutLeft (b : Byte) : Bool := b.getLsbD 7

/-- `V[X] <- result; V[0xF] <- flag`: the flag is the last write, so it is what VF holds when X = 0xF (R12). -/
def State.setRegThenFlag (s : State) (x : Reg) (result : Byte) (flag : Bool) : State :=
  (s.setReg x result).setReg VF (flagByte flag)

/-- `V[X] <- result` of a logic operation, then VF <- 0 when `QUIRK_LOGIC_VF_RESET` (R134, R135, R136). -/
def State.setLogic (s : State) (x : Reg) (result : Byte) : State :=
  if s.cfg.quirkLogicVfReset then (s.setReg x result).setReg VF 0 else s.setReg x result

end Sys2Proof.Machine
end

