-- ==== Sys2Proof/Machine/Operands.lean ====
section
/-! DEFINITION. The operand forms beyond a plain register or constant: the shift source, the key a register
selects, the pressed key, the register range, the address in I, the decimal digits, the index sum. -/

namespace Sys2Proof.Machine

/-- The operand of 8XY6 and 8XYE: VX, or VY when `QUIRK_SHIFT_VY` (41_alu.md R139, R141). -/
def State.shiftSource (s : State) (x y : Reg) : Byte := if s.cfg.quirkShiftVy then s.reg y else s.reg x

/-- The key that a register value selects in EX9E and EXA1 (43_keypad_timers.md R190): a value above 0xF selects
none when `KEY_INDEX` = fault, and its low nibble when `KEY_INDEX` = mask4. -/
def selectedKey (keyIndex : KeyIndex) (vx : Byte) : Option Reg :=
  if vx.toNat ≤ 0xF ∨ keyIndex = .mask4 then some (Fin.ofNat 16 vx.toNat) else none

/-- The lowest-indexed pressed key (43_keypad_timers.md R196). -/
def lowestKey (keys : Keypad) : Option Reg := (List.finRange 16).find? (fun k => keys[k])

/-- The address in I, the base of every data access (44_index_memory.md R217). -/
def State.base (s : State) : Nat := s.i.toNat

/-- The values of V0..VX in order (44_index_memory.md R215). -/
def State.regRange (s : State) (x : Reg) : List Byte := s.v.toList.take (x.val + 1)

/-- How many registers V0..VX are (20_memory.md R58: FX55 and FX65 access X + 1 bytes). -/
def rangeCount (x : Reg) : Nat := x.val + 1

/-- The register file after V0..VX are loaded from memory at I (44_index_memory.md R216). -/
def State.loadedRegs (s : State) (x : Reg) : Vector Byte 16 :=
  Vector.ofFn (fun k : Fin 16 => if k ≤ x then s.readByte (s.base + k.val) else s.v[k])

/-- The decimal digits of a byte: hundreds, tens, units (44_index_memory.md R214). -/
def bcdDigits (b : Byte) : List Byte :=
  [BitVec.ofNat 8 (b.toNat / 100), BitVec.ofNat 8 (b.toNat / 10 % 10), BitVec.ofNat 8 (b.toNat % 10)]

/-- What FX1E writes to I for the unbounded sum `v` (44_index_memory.md R211, R212). -/
def indexValue (policy : IOverflow) (v : Nat) : Word :=
  match policy with
  | .wrap12 => BitVec.ofNat 16 (v % 0x1000)
  | .clamp12 => BitVec.ofNat 16 (min v 0xFFF)

/-- The address of the glyph of a byte: five times its value, with no masking (44_index_memory.md R213). -/
def glyphAddress (b : Byte) : Word := BitVec.ofNat 16 (b.toNat * 5)

end Sys2Proof.Machine
end

