-- ==== Sys2Proof/Machine/Control.lean ====
section
/-! DEFINITION. Control transfer and skips (40_control.md). In every meaning the state is the one after the
fetch's PC advance, so PC is a + 2 (10_state.md R23). -/

namespace Sys2Proof.Machine

/-- A skip: PC <- PC + 2 when the condition holds (40_control.md R101). -/
def State.skipIf (s : State) (c : Bool) : State := if c then s.setPc (s.pc + 2) else s

/-- 00EE (40_control.md R102). -/
def execRet (s : State) : Host.Outcome State Fault Refusal :=
  if s.sp = 0 then .next (s.raise .stackUnderflow 0)
  else match s.topSlot with
    | some w => .next (s.pop.setPc w)
    | none => .fault .noSuchStackSlot

/-- 1NNN (40_control.md R103). -/
def execJp (nnn : Word) (s : State) : Host.Outcome State Fault Refusal := .next (s.setPc nnn)

/-- 2NNN (40_control.md R104; R110: push checks SP < STACK_DEPTH). -/
def execCall (nnn : Word) (s : State) : Host.Outcome State Fault Refusal :=
  if s.cfg.stackDepth ≤ s.sp then .next (s.raise .stackOverflow (BitVec.ofNat 16 s.sp))
  else if s.sp < s.slots.length then .next ((s.push s.pc).setPc nnn)
  else .fault .noSuchStackSlot

/-- 3XNN (40_control.md R105). -/
def execSeImm (x : Reg) (nn : Byte) (s : State) : Host.Outcome State Fault Refusal :=
  .next (s.skipIf (decide (s.reg x = nn)))

/-- 4XNN (40_control.md R106). -/
def execSneImm (x : Reg) (nn : Byte) (s : State) : Host.Outcome State Fault Refusal :=
  .next (s.skipIf (decide (s.reg x ≠ nn)))

/-- 5XY0 (40_control.md R107). -/
def execSeReg (x y : Reg) (s : State) : Host.Outcome State Fault Refusal :=
  .next (s.skipIf (decide (s.reg x = s.reg y)))

/-- 9XY0 (40_control.md R108; 90_conflicts.md C4: it skips by PC, not through I). -/
def execSneReg (x y : Reg) (s : State) : Host.Outcome State Fault Refusal :=
  .next (s.skipIf (decide (s.reg x ≠ s.reg y)))

/-- BNNN: the sum is not reduced modulo 4096 (40_control.md R109). -/
def execJpV0 (nnn : Word) (s : State) : Host.Outcome State Fault Refusal :=
  .next (s.setPc (nnn + (s.reg V0).setWidth 16))

end Sys2Proof.Machine
end

