-- ==== Sys2Proof/Machine/Drawing.lean ====
section
/-! DEFINITION. Display instructions (42_display.md). -/

namespace Sys2Proof.Machine

/-- D[y][x] (42_display.md R170). Outside the 64 by 32 cells there is no pixel: the drawing loop never asks there. -/
def Display.cell (d : Display) (y x : Nat) : Bool :=
  if h : y < 32 ∧ x < 64 then (d[y]'h.1)[x]'h.2 else false

/-- `D[y][x] <- not D[y][x]`. -/
def Display.flip (d : Display) (y x : Nat) : Display :=
  if h : y < 32 ∧ x < 64 then d.set y ((d[y]'h.1).set x (!(d[y]'h.1)[x]'h.2) h.2) h.1 else d

/-- The drawing loop's variables: the display and the collision so far. -/
structure Canvas where
  display : Display
  collision : Bool
  deriving DecidableEq, Repr

/-- One set sprite bit lands on cell (y, x): a lit cell is a collision, and the cell flips (42_display.md R172). -/
def Canvas.plot (cv : Canvas) (y x : Nat) : Canvas :=
  { display := cv.display.flip y x, collision := cv.collision || cv.display.cell y x }

/-- How many of a sprite row's 8 columns fit before the right edge (42_display.md R173). -/
def visibleColumns (x0 : Nat) : Nat := min 8 (screenWidth - x0)

/-- How many of a sprite's `n` rows fit before the bottom edge (42_display.md R172). -/
def visibleRows (n y0 : Nat) : Nat := min n (screenHeight - y0)

/-- One sprite row: bit 7 of the byte is its leftmost pixel (42_display.md R170, R172). -/
def Canvas.drawRow (cv : Canvas) (b : Byte) (y x0 : Nat) : Canvas :=
  (List.range (visibleColumns x0)).foldl
    (fun cv c => if b.getMsbD c then cv.plot y (x0 + c) else cv) cv

/-- The sprite's rows from the top, each row's byte read at `I + r` (42_display.md R172). -/
def Canvas.drawRows (cv : Canvas) (bytes : Nat → Byte) (rows y0 x0 : Nat) : Canvas :=
  (List.range rows).foldl (fun cv r => cv.drawRow (bytes r) (y0 + r) x0) cv

/-- The anchor column: wrapped once (42_display.md R172). -/
def anchorX (vx : Byte) : Nat := vx.toNat % screenWidth

/-- The anchor row: wrapped once (42_display.md R172). -/
def anchorY (vy : Byte) : Nat := vy.toNat % screenHeight

/-- 00E0 (42_display.md R171). -/
def execCls (s : State) : Host.Outcome State Fault Refusal := .next (s.setDisplay Display.clear)

/-- DXYN: the addresses of the rows that are drawn are checked first, the display is drawn, VF is written
last (42_display.md R172, R173, R174). -/
def execDrw (x y : Reg) (n : Nat) (s : State) : Host.Outcome State Fault Refusal :=
  let x0 := anchorX (s.reg x)
  let y0 := anchorY (s.reg y)
  let rows := visibleRows n y0
  match firstBadRead s.base rows with
  | some a => .next (s.raiseMemory a)
  | none =>
    let cv := Canvas.drawRows ⟨s.display, false⟩ (fun r => s.readByte (s.base + r)) rows y0 x0
    .next ((s.setDisplay cv.display).setReg VF (flagByte cv.collision))

end Sys2Proof.Machine
end

