-- ==== Sys2Proof/Machine/IndexMemory.lean ====
section
/-! DEFINITION. Index register and memory transfer instructions (44_index_memory.md). Every address of one
instruction is checked before any access (20_memory.md R57). I is never changed by an access (R217). -/

namespace Sys2Proof.Machine

/-- ANNN (44_index_memory.md R210). -/
def execLdI (nnn : Word) (s : State) : Host.Outcome State Fault Refusal := .next (s.setI nnn)

/-- FX1E: no flag (44_index_memory.md R212). -/
def execAddI (x : Reg) (s : State) : Host.Outcome State Fault Refusal :=
  .next (s.setI (indexValue s.cfg.iOverflow (s.i.toNat + (s.reg x).toNat)))

/-- FX29 (44_index_memory.md R213). -/
def execLdFont (x : Reg) (s : State) : Host.Outcome State Fault Refusal := .next (s.setI (glyphAddress (s.reg x)))

/-- FX33 (44_index_memory.md R214). -/
def execLdBcd (x : Reg) (s : State) : Host.Outcome State Fault Refusal :=
  match firstBadWrite s.cfg.fontWrite s.base 3 with
  | some a => .next (s.raiseMemory a)
  | none => .next (s.storeBytes s.base (bcdDigits (s.reg x)))

/-- FX55 (44_index_memory.md R215). -/
def execStoreRegs (x : Reg) (s : State) : Host.Outcome State Fault Refusal :=
  match firstBadWrite s.cfg.fontWrite s.base (rangeCount x) with
  | some a => .next (s.raiseMemory a)
  | none => .next (s.storeBytes s.base (s.regRange x))

/-- FX65 (44_index_memory.md R216). -/
def execLoadRegs (x : Reg) (s : State) : Host.Outcome State Fault Refusal :=
  match firstBadRead s.base (rangeCount x) with
  | some a => .next (s.raiseMemory a)
  | none => .next (s.setRegs (s.loadedRegs x))

end Sys2Proof.Machine
end

