-- ==== Sys2Proof/Machine/KeypadTimers.lean ====
section
/-! DEFINITION. Keypad and timer instructions (43_keypad_timers.md). -/

namespace Sys2Proof.Machine

/-- EX9E (43_keypad_timers.md R191). -/
def execSkp (x : Reg) (s : State) : Host.Outcome State Fault Refusal :=
  match selectedKey s.cfg.keyIndex (s.reg x) with
  | some k => .next (s.skipIf s.keys[k])
  | none => .next (s.raise .keyIndexFault ((s.reg x).setWidth 16))

/-- EXA1 (43_keypad_timers.md R192). -/
def execSknp (x : Reg) (s : State) : Host.Outcome State Fault Refusal :=
  match selectedKey s.cfg.keyIndex (s.reg x) with
  | some k => .next (s.skipIf (!s.keys[k]))
  | none => .next (s.raise .keyIndexFault ((s.reg x).setWidth 16))

/-- FX07 (43_keypad_timers.md R193). -/
def execLdFromDt (x : Reg) (s : State) : Host.Outcome State Fault Refusal := .next (s.setReg x s.dt)

/-- FX0A: with no key pressed PC goes back to the instruction itself (43_keypad_timers.md R196). -/
def execLdKey (x : Reg) (s : State) : Host.Outcome State Fault Refusal :=
  match lowestKey s.keys with
  | some k => .next (s.setReg x (BitVec.ofNat 8 k.val))
  | none => .next (s.setPc (s.pc - 2))

/-- FX15 (43_keypad_timers.md R194). -/
def execLdToDt (x : Reg) (s : State) : Host.Outcome State Fault Refusal := .next (s.setDt (s.reg x))

/-- FX18 (43_keypad_timers.md R195). -/
def execLdToSt (x : Reg) (s : State) : Host.Outcome State Fault Refusal := .next (s.setSt (s.reg x))

end Sys2Proof.Machine
end

