-- ==== Sys2Proof/Machine/Scheduler.lean ====
section
/-! DEFINITION. The run-state machine, the input poll, the timer driver and the end of a frame (60_exceptions.md R240 to R251). -/

namespace Sys2Proof.Machine

/-- A pause toggle (60_exceptions.md R243). -/
def RunState.toggle : RunState → RunState
  | .running => .paused
  | .paused => .running
  | .quit => .quit
  | .faulted => .faulted

/-- A quit input or window close (60_exceptions.md R243). -/
def RunState.onQuit : RunState → RunState
  | .running => .quit
  | .paused => .quit
  | .quit => .quit
  | .faulted => .faulted

/-- The toggles flip RS once each, in order (60_exceptions.md R244). -/
def RunState.applyToggles : Nat → RunState → RunState
  | 0, r => r
  | n + 1, r => RunState.applyToggles n r.toggle

/-- RS after a poll: a quit wins over the toggles (60_exceptions.md R244, R234). -/
def RunState.afterPoll (p : Poll) (r : RunState) : RunState :=
  if p.quit then r.onQuit else r.applyToggles p.pauseToggles

/-- What the next poll delivers: what the host has queued, else a free value (log entry 3). -/
def State.nextPoll (s : State) : Poll :=
  match s.polls with
  | p :: _ => p
  | [] => Config.freePoll s.pollCount

/-- The state after the poll `p`: K and RS are written, the input is consumed (60_exceptions.md R245, R246). -/
def State.polled (s : State) (p : Poll) : State :=
  { s with keys := p.keys, rs := s.rs.afterPoll p, polls := s.polls.tail, pollCount := s.pollCount + 1 }

/-- The start of a frame: poll, then a batch of IPF slots if RS is RUNNING, else nothing until the next poll
(60_exceptions.md R245, R249, R250). IPF = 0 is refused (R247). -/
def pollStep (s : State) : Host.Outcome State Fault Refusal :=
  let t := s.polled s.nextPoll
  if t.rs = .running then
    if t.cfg.ipf = 0 then .refused .ipfZero else .next { t with phase := .batch t.cfg.ipf }
  else .next { t with phase := .poll }

/-- One timer's tick: down by one, never below 0 (60_exceptions.md R241). -/
def tickTimer (t : Byte) : Byte := if t = 0 then 0 else t - 1

/-- Tick() (60_exceptions.md R241). -/
def State.tick (s : State) : State := { s with dt := tickTimer s.dt, st := tickTimer s.st }

/-- Render(D): the display is handed over, nothing is read back (60_exceptions.md R259). -/
def State.render (s : State) : State := { s with shown := some s.display, renders := s.renders + 1 }

/-- The end of a frame whose batch ran: render, then tick exactly once (60_exceptions.md R242, R245). -/
def endFrame (s : State) : Host.Outcome State Fault Refusal := .next { s.render.tick with phase := .poll }

end Sys2Proof.Machine
end

