-- ==== Sys2Proof/Machine/Cycle.lean ====
section
/-! DEFINITION. One instruction step: fetch, decode, execute (30_encoding.md R71, R72, R85), and which action of the
core comes next (60_exceptions.md R245). -/

namespace Sys2Proof.Machine

/-- Fetch fails when PC ≥ MEM_SIZE - 1 (30_encoding.md R71). -/
def State.fetchFails (s : State) : Bool := decide (memSize - 1 ≤ s.pc.toNat)

/-- The word at PC, big-endian (30_encoding.md R71, 20_memory.md R52). -/
def State.fetchWord (s : State) : Word := wordOfBytes (s.readByte s.pc.toNat) (s.readByte (s.pc.toNat + 1))

/-- The state in which the fetched instruction executes: PC advanced by 2, `left` slots of the batch left after this one
(30_encoding.md R71, 60_exceptions.md R247). -/
def State.afterFetch (s : State) (left : Nat) : State := { s with pc := s.pc + 2, phase := .batch left }

/-- An unrecognized opcode has no effect beyond the PC advance (30_encoding.md R80). -/
def execUnrecognized (s : State) : Host.Outcome State Fault Refusal := .next s

/-- One step of the batch (30_encoding.md R85). DecodeFault is checked first and leaves PC alone (R71, 60_exceptions.md R231, R233). -/
def stepInstr (left : Nat) (s : State) : Host.Outcome State Fault Refusal :=
  if s.fetchFails then .next (s.enterFault .decodeFault s.pc s.pc)
  else match decode s.cfg.dispatchStrict s.fetchWord with
    | .instr i => exec i (s.afterFetch left)
    | .unrecognized _ => execUnrecognized (s.afterFetch left)

/-- The next action of the core: a poll, one instruction, or the end of a frame. QUIT and FAULTED are terminal: whatever
happens, the state is unchanged (60_exceptions.md R243, R235; log entry 8). In PAUSED only the poll happens (R249). -/
def State.nextAction (s : State) : Host.Outcome State Fault Refusal :=
  match s.rs, s.phase with
  | .quit, _ => .next s
  | .faulted, _ => .next s
  | .paused, _ => pollStep s
  | .running, .poll => pollStep s
  | .running, .batch 0 => endFrame s
  | .running, .batch (left + 1) => stepInstr left s

/-- The state `s` made ready to run the table word `w` of `nbits` bits as its very next step (log entry 7): the core is
RUNNING inside a batch with a slot left, PC is an address that can be fetched, and the word stands there big-endian. -/
def State.placeWord (s : State) (nbits w : Nat) : State :=
  let slot : Nat := match s.phase with
    | .batch (left + 1) => left + 1
    | .batch 0 => max 1 s.cfg.ipf
    | .poll => max 1 s.cfg.ipf
  let pc : Word := if s.fetchFails then BitVec.ofNat 16 progBase else s.pc
  let ready : State := { s with rs := .running, phase := .batch slot, pc := pc }
  ready.storeBytes pc.toNat [highByte (tableWord nbits w), lowByte (tableWord nbits w)]

end Sys2Proof.Machine
end

