-- ==== Sys2Proof/Machine/Step.lean ====
section
/-! DEFINITION. One step of the machine, and where a word is placed for the next step to fetch. -/

namespace Sys2Proof.Machine

/-- One step: the frame scheduler's next action (60_exceptions.md R245; log entry 2). -/
def step (s : State) : Host.Outcome State Fault Refusal := s.nextAction

/-- `s` with the table word stored where `step` fetches its next instruction, and ready to run it (log entry 7). -/
def State.withFetchWord (s : State) (nbits w : Nat) : State := s.placeWord nbits w

end Sys2Proof.Machine
end

