-- ==== Sys2Proof/Machine/Boot.lean ====
section
/-! DEFINITION. Reset with a ROM image and the failures before the core's first step (70_reset_and_hazards.md R270 to
R273, 60_exceptions.md R239, R255). -/

namespace Sys2Proof.Machine

/-- What the host supplies at launch: whether its own setup succeeded, and the ROM image unless it is missing or unreadable. -/
structure Launch where
  hostReady : Bool
  rom : Option (List Byte)
  deriving DecidableEq, Repr

/-- Step (3) of reset: the ROM image is copied to 0x200 and up (70_reset_and_hazards.md R270). -/
def State.loadRom (s : State) (rom : List Byte) : State := s.storeBytes progBase rom

/-- Reset of a machine with the parameters `cfg`, or the failure that keeps the core from starting. -/
def boot (cfg : Config) (l : Launch) : Host.Outcome State Fault Refusal :=
  if l.hostReady then
    match l.rom with
    | none => .refused .romLoadFailure
    | some rom =>
      if maxRom < rom.length then .refused .romLoadFailure
      else if cfg.ipf = 0 then .refused .ipfZero
      else .next ((State.resetWith cfg).loadRom rom)
  else .refused .initializationFailure

end Sys2Proof.Machine
end

