-- ==== Sys2Proof/Machine/Outputs.lean ====
section
/-! DEFINITION. The core's outputs as functions of the state (60_exceptions.md R254). None of them changes state. -/

namespace Sys2Proof.Machine

/-- `sound_active`: true exactly when ST > 0 (60_exceptions.md R257). -/
def State.soundActive (s : State) : Bool := decide (0 < s.st.toNat)

/-- `run_state` (60_exceptions.md R254). -/
def State.runStateOut (s : State) : RunState := s.rs

/-- `fault`: the code, FAULT_PC and FAULT_INFO, once a fault was taken (60_exceptions.md R254). -/
def State.faultOut (s : State) : Option (Nat × Word × Word) :=
  if s.rs = .faulted then some (s.fault.code, s.faultPc, s.faultInfo) else none

/-- `display`: row-major, element y × 64 + x is D[y][x] (10_state.md R32). -/
def Display.rowMajor (d : Display) : List Bool := d.toList.flatMap (fun row => row.toList)

/-- One event of the optional trace (60_exceptions.md R252). -/
structure TraceEvent where
  address : Word
  word : Word
  unrecognized : Bool
  deriving DecidableEq, Repr

/-- `trace`: what an enabled trace emits for the step taken from `s`, where that step executes a word. -/
def State.traceOut (s : State) : Option TraceEvent :=
  match s.rs, s.phase with
  | .running, .batch (_ + 1) =>
    if s.fetchFails then none
    else some
      { address := s.pc, word := s.fetchWord,
        unrecognized := match decode s.cfg.dispatchStrict s.fetchWord with
          | .instr _ => false
          | .unrecognized _ => true }
  | _, _ => none

end Sys2Proof.Machine
end

