-- ==== Sys2Proof/Safety.lean ====
section
/-! DEFINITION. The terms claims are stated in: the machine's invariant, what an instruction may write (its
footprint) and the frame that follows, taking a fault, and the pixels of a sprite. -/

namespace Sys2Proof.Machine

/-! ## The invariant -/

/-- What holds in every state that a booted machine reaches. -/
structure State.Inv (s : State) : Prop where
  /-- Memory is in its canonical form. -/
  memWf : Memory.wf s.cfg.resetByte s.mem = true
  /-- Under `FONT_WRITE` = fault no byte of the font region has been changed (20_memory.md R51, R56). -/
  fontIntact : s.cfg.fontWrite = .fault → ∀ c ∈ s.mem, fontLen ≤ c.1
  /-- The call stack has STACK_DEPTH slots (10_state.md R29). -/
  slotCount : s.slots.length = s.cfg.stackDepth
  /-- A return address is the address after an instruction that could be fetched (40_control.md R104). -/
  slotRange : ∀ w ∈ s.slots, w.toNat ≤ 0x1000
  /-- SP is in 0..STACK_DEPTH (10_state.md R29). -/
  spRange : s.sp ≤ s.cfg.stackDepth
  /-- Bits 15:12 of I are 0 (10_state.md R28). -/
  iRange : s.i.toNat ≤ 0xFFF
  /-- PC never passes the largest value BNNN can write (10_state.md R26). -/
  pcRange : s.pc.toNat ≤ 0x10FE
  /-- RS is FAULTED exactly when a fault is recorded (60_exceptions.md R231, R243). -/
  faultedIff : s.rs = .faulted ↔ s.fault ≠ .none
  /-- With no fault recorded FAULT_PC and FAULT_INFO hold their reset values (10_state.md R34). -/
  faultClear : s.fault = .none → s.faultPc = 0 ∧ s.faultInfo = 0
  /-- A batch has at most IPF slots left (60_exceptions.md R247). -/
  slotsLeft : ∀ left, s.phase = .batch left → left ≤ s.cfg.ipf
  /-- A paused core stands before its next poll (60_exceptions.md R245, R249). -/
  pausedAtPoll : s.rs = .paused → s.phase = .poll
  /-- IPF is at least 1 (60_exceptions.md R247). -/
  ipfPositive : 1 ≤ s.cfg.ipf

/-! ## Frames -/

/-- What an instruction may write. A part that is not named is not written. -/
structure Footprint where
  /-- Registers V0..VF. -/
  regs : Reg → Prop := fun _ => False
  /-- I. -/
  index : Prop := False
  /-- SP. -/
  stackPointer : Prop := False
  /-- S[k]. -/
  slots : Nat → Prop := fun _ => False
  /-- DT. -/
  delay : Prop := False
  /-- ST. -/
  sound : Prop := False
  /-- D. -/
  display : Prop := False
  /-- RS, FAULT, FAULT_PC and FAULT_INFO. -/
  fault : Prop := False
  /-- The random input. -/
  random : Prop := False
  /-- Bytes of Memory. -/
  mem : Nat → Prop := fun _ => False

/-- `t` differs from `s` at most in PC and in the footprint: everything else of the state is unchanged. -/
structure Frame (f : Footprint) (s t : State) : Prop where
  regs : ∀ x, ¬ f.regs x → t.reg x = s.reg x
  index : ¬ f.index → t.i = s.i
  stackPointer : ¬ f.stackPointer → t.sp = s.sp
  slots : ∀ k, ¬ f.slots k → t.slots[k]? = s.slots[k]?
  slotCount : t.slots.length = s.slots.length
  delay : ¬ f.delay → t.dt = s.dt
  sound : ¬ f.sound → t.st = s.st
  display : ¬ f.display → t.display = s.display
  runState : ¬ f.fault → t.rs = s.rs
  fault : ¬ f.fault → t.fault = s.fault
  faultPc : ¬ f.fault → t.faultPc = s.faultPc
  faultInfo : ¬ f.fault → t.faultInfo = s.faultInfo
  random : ¬ f.random → t.rnd = s.rnd ∧ t.drawCount = s.drawCount
  mem : ∀ a, ¬ f.mem a → t.readByte a = s.readByte a
  keys : t.keys = s.keys
  cfg : t.cfg = s.cfg
  phase : t.phase = s.phase
  polls : t.polls = s.polls ∧ t.pollCount = s.pollCount
  shown : t.shown = s.shown ∧ t.renders = s.renders

/-- `t` is `s` after fault entry from the execute phase: the fault status and RS are written, FAULT_PC is the
instruction's address (PC - 2), PC keeps its value and nothing else changes (60_exceptions.md R231). -/
structure TakesFault (code : FaultCode) (info : Nat) (s t : State) : Prop where
  code : t.fault = code
  address : t.faultPc = s.pc - 2
  info : t.faultInfo.toNat = info
  runState : t.rs = .faulted
  pc : t.pc = s.pc
  frame : Frame { fault := True } s t

/-- `i` takes a fault on `s`. -/
def Faults (i : Instr) (code : FaultCode) (info : Nat) (s : State) : Prop :=
  ∃ t, exec i s = .next t ∧ TakesFault code info s t

/-! ## Sprites -/

/-- Whether DXYN with anchor (x0, y0) and `rows` drawn rows has a set sprite bit at row Y, column X: the bit is
`(b >> (7 - c)) & 1` of the byte `b` at I + r, with r = Y - y0 and c = X - x0 (42_display.md R172). -/
def State.spriteBit (s : State) (x0 y0 rows Y X : Nat) : Bool :=
  decide (y0 ≤ Y ∧ Y < y0 + rows ∧ x0 ≤ X ∧ X < x0 + 8) &&
    decide ((s.readByte (s.base + (Y - y0))).toNat / 2 ^ (7 - (X - x0)) % 2 = 1)

/-! ## Runs -/

/-- What `f` makes of the state of a next outcome; a fault or refusal stays. -/
def mapNext (f : State → State) : Host.Outcome State Fault Refusal → Host.Outcome State Fault Refusal
  | .next s => .next (f s)
  | .fault r => .fault r
  | .refused r => .refused r

/-- The word at PC can be fetched and decodes to `i` (30_encoding.md R71, R72). -/
abbrev State.Decodes (s : State) (i : Instr) : Prop :=
  s.pc.toNat < 0xFFF ∧ decode s.cfg.dispatchStrict s.fetchWord = .instr i

/-- The execute phases of several instructions, one after the other, stopping at the first fault or refusal. -/
def execAll : List Instr → State → Host.Outcome State Fault Refusal
  | [], s => .next s
  | i :: is, s =>
    match exec i s with
    | .next t => execAll is t
    | .fault r => .fault r
    | .refused r => .refused r

/-- `i` is a skip instruction whose condition holds in `s` (40_control.md R101, 43_keypad_timers.md R191, R192). -/
def State.skips (s : State) : Instr → Bool
  | .seImm x nn => decide (s.reg x = nn)
  | .sneImm x nn => decide (s.reg x ≠ nn)
  | .seReg x y => decide (s.reg x = s.reg y)
  | .sneReg x y => decide (s.reg x ≠ s.reg y)
  | .skp x => (selectedKey s.cfg.keyIndex (s.reg x)).any (fun k => s.keys[k])
  | .sknp x => (selectedKey s.cfg.keyIndex (s.reg x)).any (fun k => !s.keys[k])
  | .cls | .ret | .jp _ | .call _ | .ldImm _ _ | .addImm _ _ | .ldReg _ _ => false
  | .orReg _ _ | .andReg _ _ | .xorReg _ _ | .addReg _ _ | .sub _ _ | .shr _ _ => false
  | .subn _ _ | .shl _ _ | .ldI _ | .jpV0 _ | .rnd _ _ | .drw _ _ _ => false
  | .ldFromDt _ | .ldKey _ | .ldToDt _ | .ldToSt _ | .addI _ | .ldFont _ => false
  | .ldBcd _ | .storeRegs _ | .loadRegs _ => false

end Sys2Proof.Machine
end

