-- ==== Sys2Proof/Certificates/Slice0/Obligations.lean ====
section
/-! DEFINITION. The statements for the provers. Each says what the rules of spec/ named in OBLIGATIONS.json say of the
machine. The state an instruction executes in is the one after the fetch's PC advance, so `s.pc` is a + 2 there. -/

open Sys2Proof Sys2Proof.Machine

/-! ## Decoding and encoding -/

/-- Decoding the word of a well-formed instruction gives it back with every operand, under both values of DISPATCH_STRICT. -/
def Obligations.DecodeInvertsEncode : Prop :=
  ∀ (strict : Bool) (i : Instr), i.WellFormed → decode strict (encode i) = .instr i

/-- Under DISPATCH_STRICT each recognized word has one meaning and one spelling: encoding what it decodes to gives it back,
and what it decodes to is well-formed. -/
def Obligations.EncodeInvertsDecode : Prop :=
  ∀ (w : Word) (i : Instr), decode true w = .instr i → encode i = w ∧ i.WellFormed

/-- The 34 rows of R75: a word decodes as the row it matches says, and no word matches two rows. -/
def Obligations.OpcodeTableDecides : Prop :=
  opcodeRows.length = 34 ∧
  (∀ r ∈ opcodeRows, ∀ w : Word, r.Matches w → decode true w = .instr (r.build w)) ∧
  opcodeRows.Pairwise (fun r r' => ∀ w : Word, ¬ (r.Matches w ∧ r'.Matches w))

/-- Every 16-bit word is either an instruction of the table or an unrecognized opcode, never both: it is unrecognized exactly
when it matches no row. -/
def Obligations.UnrecognizedMatchesNoRow : Prop :=
  ∀ w : Word, (∃ why, decode true w = .unrecognized why) ↔ ∀ r ∈ opcodeRows, ¬ r.Matches w

/-- Family 8 dispatches on N and families E and F on NN, with nothing recognized beside the values listed. In the ten families
without a second level every word is the instruction of its one row, whatever its low 12 bits. -/
def Obligations.SecondLevelDispatch : Prop :=
  ∀ (strict : Bool) (w : Word),
    (fieldCategory w = 0x8 →
      (∀ p ∈ [(0x0, Instr.ldReg), (0x1, .orReg), (0x2, .andReg), (0x3, .xorReg), (0x4, .addReg), (0x5, .sub), (0x6, .shr),
          (0x7, .subn), (0xE, .shl)], fieldN w = p.1 → decode strict w = .instr (p.2 (fieldX w) (fieldY w))) ∧
      (fieldN w ∈ [0x8, 0x9, 0xA, 0xB, 0xC, 0xD, 0xF] → decode strict w = .unrecognized .family8)) ∧
    (fieldCategory w = 0xE →
      (∀ p ∈ [((0x9E : Byte), Instr.skp), (0xA1, .sknp)], fieldNN w = p.1 → decode strict w = .instr (p.2 (fieldX w))) ∧
      (fieldNN w ∉ [0x9E, 0xA1] → decode strict w = .unrecognized .familyE)) ∧
    (fieldCategory w = 0xF →
      (∀ p ∈ [((0x07 : Byte), Instr.ldFromDt), (0x0A, .ldKey), (0x15, .ldToDt), (0x18, .ldToSt), (0x1E, .addI), (0x29, .ldFont),
          (0x33, .ldBcd), (0x55, .storeRegs), (0x65, .loadRegs)], fieldNN w = p.1 → decode strict w = .instr (p.2 (fieldX w))) ∧
      (fieldNN w ∉ [0x07, 0x0A, 0x15, 0x18, 0x1E, 0x29, 0x33, 0x55, 0x65] → decode strict w = .unrecognized .familyF)) ∧
    (fieldCategory w ∈ [0x1, 0x2, 0x3, 0x4, 0x6, 0x7, 0xA, 0xB, 0xC, 0xD] →
      ∃ r ∈ opcodeRows, r.mask = 0xF000 ∧ r.Matches w ∧ decode strict w = .instr (r.build w))

/-- DISPATCH_STRICT (R76): with true, family 0 has only 00E0 and 00EE and families 5 and 9 need bits 3:0 = 0. With false, NN
alone decides in family 0 and bits 3:0 are ignored in 5 and 9. Every other word of family 0 is unrecognized under either value.
No other family depends on it.
Decisions of the spec it rests on: D11. -/
def Obligations.DispatchStrictSelects : Prop :=
  ∀ w : Word,
    (fieldCategory w = 0x0 →
      (decode true w = .instr .cls ↔ w = 0x00E0) ∧ (decode true w = .instr .ret ↔ w = 0x00EE) ∧
      (w ≠ 0x00E0 → w ≠ 0x00EE → decode true w = .unrecognized .family0) ∧
      (decode false w = .instr .cls ↔ fieldNN w = 0xE0) ∧ (decode false w = .instr .ret ↔ fieldNN w = 0xEE) ∧
      (fieldNN w ≠ 0xE0 → fieldNN w ≠ 0xEE → decode false w = .unrecognized .family0)) ∧
    (fieldCategory w = 0x5 →
      decode true w = (if fieldN w = 0 then .instr (.seReg (fieldX w) (fieldY w)) else .unrecognized .family5) ∧
      decode false w = .instr (.seReg (fieldX w) (fieldY w))) ∧
    (fieldCategory w = 0x9 →
      decode true w = (if fieldN w = 0 then .instr (.sneReg (fieldX w) (fieldY w)) else .unrecognized .family9) ∧
      decode false w = .instr (.sneReg (fieldX w) (fieldY w))) ∧
    (fieldCategory w ∉ [0x0, 0x5, 0x9] → decode false w = decode true w)

/-- Words written out from R75, one or more of each of the sixteen families, decode to the instruction they stand for, and so
does an unrecognized word of each family that has one. -/
def Obligations.SampleWordsDecode : Prop :=
  decode true 0x00E0 = .instr .cls ∧ decode true 0x00EE = .instr .ret ∧ decode true 0x1234 = .instr (.jp 0x234) ∧
  decode true 0x2210 = .instr (.call 0x210) ∧ decode true 0x3342 = .instr (.seImm 3 0x42) ∧
  decode true 0x4342 = .instr (.sneImm 3 0x42) ∧ decode true 0x5120 = .instr (.seReg 1 2) ∧
  decode true 0x6A7B = .instr (.ldImm 0xA 0x7B) ∧ decode true 0x7001 = .instr (.addImm 0 0x01) ∧
  decode true 0x8124 = .instr (.addReg 1 2) ∧ decode true 0x812E = .instr (.shl 1 2) ∧
  decode true 0x9120 = .instr (.sneReg 1 2) ∧ decode true 0xA300 = .instr (.ldI 0x300) ∧
  decode true 0xB300 = .instr (.jpV0 0x300) ∧ decode true 0xC30F = .instr (.rnd 3 0x0F) ∧
  decode true 0xD12A = .instr (.drw 1 2 10) ∧ decode true 0xE19E = .instr (.skp 1) ∧
  decode true 0xF333 = .instr (.ldBcd 3) ∧ decode true 0xF365 = .instr (.loadRegs 3) ∧
  decode true 0x0123 = .unrecognized .family0 ∧ decode true 0x5121 = .unrecognized .family5 ∧
  decode true 0x8128 = .unrecognized .family8 ∧ decode true 0x9121 = .unrecognized .family9 ∧
  decode true 0xE19F = .unrecognized .familyE ∧ decode true 0xF130 = .unrecognized .familyF

/-! ## The instruction step -/

/-- In a running batch with a slot left, a word at PC that decodes to `i` makes the step that instruction's execute phase on
the state with PC advanced by 2 and one slot fewer.
Conventions of the model in it: log entry 2 (DEDUCED: one step is one instruction and takes one slot). -/
def Obligations.StepRunsDecodedInstruction : Prop :=
  ∀ (s : State) (left : Nat) (i : Instr),
    s.rs = .running → s.phase = .batch (left + 1) → s.pc.toNat < 0xFFF →
    decodeBytes s.cfg.dispatchStrict (s.readByte s.pc.toNat) (s.readByte (s.pc.toNat + 1)) = .instr i →
    step s = exec i { s with pc := s.pc + 2, phase := .batch left }

/-- Fetch reads the two bytes at PC and PC + 1, odd or even, big-endian. It fails only at PC ≥ MEM_SIZE - 1, and then the step is
fatal: DecodeFault is recorded with PC as address and information, RS becomes FAULTED, PC stays and nothing else changes. That the
place in the frame stays too is the model's choice (log entry 19).
Decisions of the spec it rests on: D2, D3, D20.
Conventions of the model in it: log entries 2, 9 (DEDUCED). -/
def Obligations.FetchIsBigEndianAndBounded : Prop :=
  ∀ (s : State) (left : Nat),
    s.fetchWord.toNat = (s.readByte s.pc.toNat).toNat * 256 + (s.readByte (s.pc.toNat + 1)).toNat ∧
    (s.rs = .running → s.phase = .batch (left + 1) →
      (0xFFF ≤ s.pc.toNat →
        ∃ t, step s = .next t ∧ t.fault = .decodeFault ∧ t.faultPc = s.pc ∧ t.faultInfo = s.pc ∧ t.rs = .faulted ∧
          t.pc = s.pc ∧ Frame { fault := True } s t) ∧
      (s.pc.toNat < 0xFFF → s.fault = .none → ∀ t, step s = .next t → t.fault ≠ .decodeFault))

/-- An unrecognized opcode only advances PC. The step takes one slot of the batch, as every step does (R247), and nothing else
changes.
Conventions of the model in it: log entry 2 (DEDUCED). -/
def Obligations.UnrecognizedOnlyAdvancesPc : Prop :=
  ∀ (s : State) (left : Nat) (why : Unrecognized),
    s.rs = .running → s.phase = .batch (left + 1) → s.pc.toNat < 0xFFF →
    decode s.cfg.dispatchStrict s.fetchWord = .unrecognized why →
    ∃ t, step s = .next t ∧ t.pc.toNat = s.pc.toNat + 2 ∧ t.phase = .batch left ∧
      Frame {} { s with phase := .batch left } t

/-- Where each instruction leaves PC when it takes no fault, a being its address (so `s.pc` is a + 2): jumps, CALL and RET
at their target, a skip that holds at a + 4, FX0A with no key at a, every other at a + 2, and an unrecognized opcode too. -/
def Obligations.PcAfterEachInstruction : Prop :=
  (∀ s t : State, execUnrecognized s = .next t → t.pc = s.pc) ∧
  ∀ (i : Instr) (s t : State), exec i s = .next t → t.rs ≠ .faulted →
    t.pc = match i with
      | .jp nnn | .call nnn => nnn
      | .jpV0 nnn => nnn + (s.reg V0).setWidth 16
      | .ret => (s.slots[s.sp - 1]?).getD 0
      | .ldKey _ => if ∃ k : Reg, s.keys[k] = true then s.pc else s.pc - 2
      | i => if s.skips i then s.pc + 2 else s.pc

/-! ## Register loads and ALU -/

/-- 6XNN, 7XNN, 8XY0: VX is written, modulo 256 and with no flag, and nothing else. -/
def Obligations.LoadsAndAddConstantWriteVx : Prop :=
  ∀ (s : State) (x y : Reg) (nn : Byte),
    (∃ t, exec (.ldImm x nn) s = .next t ∧ t.reg x = nn ∧ t.pc = s.pc ∧ Frame { regs := (· = x) } s t) ∧
    (∃ t, exec (.addImm x nn) s = .next t ∧ (t.reg x).toNat = ((s.reg x).toNat + nn.toNat) % 256 ∧ t.pc = s.pc ∧
      Frame { regs := (· = x) } s t) ∧
    (∃ t, exec (.ldReg x y) s = .next t ∧ t.reg x = s.reg y ∧ t.pc = s.pc ∧ Frame { regs := (· = x) } s t)

/-- 8XY1, 8XY2, 8XY3: VX gets the bitwise result. VF is not touched unless QUIRK_LOGIC_VF_RESET, which clears it last.
Decisions of the spec it rests on: D9, D10. -/
def Obligations.LogicWritesVxAndQuirkClearsVf : Prop :=
  ∀ (s : State) (x y : Reg),
    let clears := s.cfg.quirkLogicVfReset = true
    let touched : Footprint := { regs := fun r => r = x ∨ (clears ∧ r = VF) }
    (∃ t, exec (.orReg x y) s = .next t ∧
      (∀ k < 8, ¬ (clears ∧ x = VF) → (t.reg x).getLsbD k = ((s.reg x).getLsbD k || (s.reg y).getLsbD k)) ∧
      (clears → t.reg VF = 0) ∧ t.pc = s.pc ∧ Frame touched s t) ∧
    (∃ t, exec (.andReg x y) s = .next t ∧
      (∀ k < 8, ¬ (clears ∧ x = VF) → (t.reg x).getLsbD k = ((s.reg x).getLsbD k && (s.reg y).getLsbD k)) ∧
      (clears → t.reg VF = 0) ∧ t.pc = s.pc ∧ Frame touched s t) ∧
    (∃ t, exec (.xorReg x y) s = .next t ∧
      (∀ k < 8, ¬ (clears ∧ x = VF) → (t.reg x).getLsbD k = ((s.reg x).getLsbD k ^^ (s.reg y).getLsbD k)) ∧
      (clears → t.reg VF = 0) ∧ t.pc = s.pc ∧ Frame touched s t)

/-- 8XY4: VX gets the sum modulo 256, then VF the carry, so VF = carry also when X = 0xF.
Decisions of the spec it rests on: D10. -/
def Obligations.AddSetsCarry : Prop :=
  ∀ (s : State) (x y : Reg), ∃ t, exec (.addReg x y) s = .next t ∧
    (x ≠ VF → (t.reg x).toNat = ((s.reg x).toNat + (s.reg y).toNat) % 256) ∧
    t.reg VF = (if (s.reg x).toNat + (s.reg y).toNat > 255 then 1 else 0) ∧ t.pc = s.pc ∧
    Frame { regs := fun r => r = x ∨ r = VF } s t

/-- 8XY5 and 8XY7: VX gets the difference modulo 256, then VF = 1 exactly when no borrow occurs, also when X = 0xF.
Decisions of the spec it rests on: D10. -/
def Obligations.SubtractSetsNoBorrow : Prop :=
  ∀ (s : State) (x y : Reg),
    (∃ t, exec (.sub x y) s = .next t ∧
      (x ≠ VF → ((t.reg x).toNat : Int) = (((s.reg x).toNat : Int) - (s.reg y).toNat) % 256) ∧
      t.reg VF = (if (s.reg x).toNat ≥ (s.reg y).toNat then 1 else 0) ∧ t.pc = s.pc ∧
      Frame { regs := fun r => r = x ∨ r = VF } s t) ∧
    (∃ t, exec (.subn x y) s = .next t ∧
      (x ≠ VF → ((t.reg x).toNat : Int) = (((s.reg y).toNat : Int) - (s.reg x).toNat) % 256) ∧
      t.reg VF = (if (s.reg y).toNat ≥ (s.reg x).toNat then 1 else 0) ∧ t.pc = s.pc ∧
      Frame { regs := fun r => r = x ∨ r = VF } s t)

/-- 8XY6 and 8XYE: VX gets its source (VX, or VY under QUIRK_SHIFT_VY) shifted by one, then VF the bit shifted out, also
when X = 0xF.
Decisions of the spec it rests on: D8, D10. -/
def Obligations.ShiftsSetBitShiftedOut : Prop :=
  ∀ (s : State) (x y : Reg),
    let src := (if s.cfg.quirkShiftVy = true then s.reg y else s.reg x).toNat
    (∃ t, exec (.shr x y) s = .next t ∧ (x ≠ VF → (t.reg x).toNat = src / 2) ∧ (t.reg VF).toNat = src % 2 ∧
      t.pc = s.pc ∧ Frame { regs := fun r => r = x ∨ r = VF } s t) ∧
    (∃ t, exec (.shl x y) s = .next t ∧ (x ≠ VF → (t.reg x).toNat = src * 2 % 256) ∧ (t.reg VF).toNat = src / 128 ∧
      t.pc = s.pc ∧ Frame { regs := fun r => r = x ∨ r = VF } s t)

/-- CXNN draws one byte and writes it under the mask NN: the byte the host has queued, and where none is queued whatever
byte comes. Bits outside NN are 0, NN = 0 gives 0, NN = 0xFF the whole draw.
Decisions of the spec it rests on: D15.
Conventions of the model in it: log entry 4 (DESIGN CHOICE: the queue of drawn bytes and the count). -/
def Obligations.RandomByteUnderMask : Prop :=
  ∀ (s : State) (x : Reg) (nn : Byte), ∃ (t : State) (r : Byte), exec (.rnd x nn) s = .next t ∧
    (∀ b rest, s.rnd = b :: rest → r = b ∧ t.rnd = rest) ∧ t.drawCount = s.drawCount + 1 ∧
    (∀ k < 8, (t.reg x).getLsbD k = (r.getLsbD k && nn.getLsbD k)) ∧
    (nn = 0x00 → t.reg x = 0) ∧ (nn = 0xFF → t.reg x = r) ∧ t.pc = s.pc ∧
    Frame { regs := (· = x), random := True } s t

/-! ## Control transfer -/

/-- 3XNN, 4XNN, 5XY0, 9XY0: PC moves past one more word exactly when the condition holds, and nothing else changes. -/
def Obligations.CompareSkips : Prop :=
  ∀ (s : State) (x y : Reg) (nn : Byte),
    (∃ t, exec (.seImm x nn) s = .next t ∧ t.pc = (if s.reg x = nn then s.pc + 2 else s.pc) ∧ Frame {} s t) ∧
    (∃ t, exec (.sneImm x nn) s = .next t ∧ t.pc = (if s.reg x = nn then s.pc else s.pc + 2) ∧ Frame {} s t) ∧
    (∃ t, exec (.seReg x y) s = .next t ∧ t.pc = (if s.reg x = s.reg y then s.pc + 2 else s.pc) ∧ Frame {} s t) ∧
    (∃ t, exec (.sneReg x y) s = .next t ∧ t.pc = (if s.reg x = s.reg y then s.pc else s.pc + 2) ∧ Frame {} s t)

/-- 1NNN and BNNN: PC gets the target. BNNN's sum does not wrap. A target at or above 0xFFF fails at the next fetch only.
Decisions of the spec it rests on: D20. -/
def Obligations.JumpsSetPc : Prop :=
  ∀ (s : State) (nnn : Word), nnn.toNat < 0x1000 →
    (∃ t, exec (.jp nnn) s = .next t ∧ t.pc = nnn ∧ (t.fetchFails = true ↔ nnn.toNat = 0xFFF) ∧ Frame {} s t) ∧
    (∃ t, exec (.jpV0 nnn) s = .next t ∧ t.pc.toNat = nnn.toNat + (s.reg V0).toNat ∧
      (t.fetchFails = true ↔ nnn.toNat + (s.reg V0).toNat ≥ 0xFFF) ∧ Frame {} s t)

/-- 2NNN: pushes PC (a + 2), then jumps. With SP at or above STACK_DEPTH it takes StackOverflow(SP) and changes nothing
else: R104 tests SP = STACK_DEPTH, and the two agree on every SP that R29 allows (log entry 10).
Decisions of the spec it rests on: D2, D3, D7.
Conventions of the model in it: log entry 9 (DEDUCED). -/
def Obligations.CallPushesReturnAddress : Prop :=
  ∀ (s : State) (nnn : Word), s.slots.length = s.cfg.stackDepth → s.sp < 65536 →
    (s.sp < s.cfg.stackDepth → ∃ t, exec (.call nnn) s = .next t ∧ t.slots[s.sp]? = some s.pc ∧ t.sp = s.sp + 1 ∧
      t.pc = nnn ∧ Frame { stackPointer := True, slots := (· = s.sp) } s t) ∧
    (s.cfg.stackDepth ≤ s.sp → Faults (.call nnn) .stackOverflow s.sp s)

/-- 00EE: pops the return address into PC, and the slot keeps its value. With SP = 0 it takes StackUnderflow(0) and changes
nothing else. A popped address at or above 0xFFF is accepted and fails at the next fetch only.
Decisions of the spec it rests on: D2, D3.
Conventions of the model in it: log entry 9 (DEDUCED). -/
def Obligations.ReturnPopsIntoPc : Prop :=
  ∀ s : State, s.sp ≤ s.slots.length →
    (0 < s.sp → ∃ t, exec .ret s = .next t ∧ s.slots[s.sp - 1]? = some t.pc ∧ t.sp = s.sp - 1 ∧
      (t.fetchFails = true ↔ t.pc.toNat ≥ 0xFFF) ∧ Frame { stackPointer := True } s t) ∧
    (s.sp = 0 → Faults .ret .stackUnderflow 0 s)

/-- CALL then RET returns to the address after the CALL, from any depth below STACK_DEPTH, wherever PC went in between. -/
def Obligations.CallThenReturnComesBack : Prop :=
  ∀ (s : State) (nnn elsewhere : Word), s.slots.length = s.cfg.stackDepth → s.sp < s.cfg.stackDepth →
    ∃ t u, exec (.call nnn) s = .next t ∧ exec .ret { t with pc := elsewhere } = .next u ∧
      u.pc = s.pc ∧ u.sp = s.sp ∧ u.rs = s.rs

/-- From SP = 0, STACK_DEPTH nested calls succeed and the next one takes StackOverflow(STACK_DEPTH).
Decisions of the spec it rests on: D2, D3, D7.
Conventions of the model in it: log entries 9, 10 (DEDUCED). -/
def Obligations.CallsNestToStackDepth : Prop :=
  ∀ (s : State) (targets : List Word) (last : Word), s.sp = 0 → s.slots.length = s.cfg.stackDepth →
    s.cfg.stackDepth < 65536 → targets.length ≤ s.cfg.stackDepth →
    ∃ t, execAll (targets.map .call) s = .next t ∧ t.sp = targets.length ∧ t.rs = s.rs ∧ t.fault = s.fault ∧
      (targets.length = s.cfg.stackDepth → Faults (.call last) .stackOverflow s.cfg.stackDepth t)

/-! ## Display -/

/-- 00E0: every cell becomes false, VF and all else stay. -/
def Obligations.ClearDisplay : Prop :=
  ∀ s : State, ∃ t, exec .cls s = .next t ∧ (∀ Y X, Y < 32 → X < 64 → t.display.cell Y X = false) ∧ t.pc = s.pc ∧
    Frame { display := True } s t

/-- DXYN, pixel by pixel: with the anchor (VX mod 64, VY mod 32) and the rows that fit above the bottom edge, a cell flips exactly
where the sprite has a set bit, VF is 1 exactly when such a cell was lit, and nothing else changes. If a drawn row's byte
lies above 0xFFF it takes MemoryFault at the lowest such address and draws nothing.
Decisions of the spec it rests on: D3, D5, D10.
Conventions of the model in it: log entry 9 (DEDUCED). -/
def Obligations.DrawFlipsSpritePixels : Prop :=
  ∀ (s : State) (x y : Reg) (n : Nat),
    let x0 := (s.reg x).toNat % 64
    let y0 := (s.reg y).toNat % 32
    let rows := min n (32 - y0)
    (rows = 0 ∨ s.base + rows ≤ 0x1000 → ∃ t, exec (.drw x y n) s = .next t ∧
      (∀ Y X, Y < 32 → X < 64 → t.display.cell Y X = (s.display.cell Y X ^^ s.spriteBit x0 y0 rows Y X)) ∧
      (t.reg VF = 1 ∨ t.reg VF = 0) ∧
      (t.reg VF = 1 ↔ ∃ Y X, Y < 32 ∧ X < 64 ∧ s.spriteBit x0 y0 rows Y X = true ∧ s.display.cell Y X = true) ∧
      t.pc = s.pc ∧ Frame { regs := (· = VF), display := True } s t) ∧
    (0 < rows → 0x1000 < s.base + rows → Faults (.drw x y n) .memoryFault (max s.base 0x1000) s)

/-- DXYN is clipped at the bottom: any N that covers the rows that fit does the same, so undrawn rows are neither read nor
checked. With N = 0 it draws nothing, reads nothing, raises nothing and sets VF = 0, wherever I points.
Decisions of the spec it rests on: D10. -/
def Obligations.DrawClipsAndZeroRowsClearVf : Prop :=
  ∀ (s : State) (x y : Reg) (n : Nat),
    (32 - (s.reg y).toNat % 32 ≤ n → exec (.drw x y n) s = exec (.drw x y (32 - (s.reg y).toNat % 32)) s) ∧
    (∃ t, exec (.drw x y 0) s = .next t ∧ t.reg VF = 0 ∧ t.pc = s.pc ∧ Frame { regs := (· = VF) } s t)

/-- Drawing the same sprite twice at the same place restores the display, and the second draw reports VF = 1 exactly when the
first lit a pixel: when a drawn set bit fell on a cell that was not lit (log entry 13). With X or Y = 0xF the first draw
changes the second one's anchor, so those forms draw at two places.
Decisions of the spec it rests on: D5, D10. -/
def Obligations.DrawTwiceRestoresDisplay : Prop :=
  ∀ (s : State) (x y : Reg) (n : Nat), x ≠ VF → y ≠ VF →
    let x0 := (s.reg x).toNat % 64
    let y0 := (s.reg y).toNat % 32
    let rows := min n (32 - y0)
    s.base + rows ≤ 0x1000 → ∃ t u, exec (.drw x y n) s = .next t ∧ exec (.drw x y n) t = .next u ∧
      u.display = s.display ∧
      (u.reg VF = 1 ∨ u.reg VF = 0) ∧
      (u.reg VF = 1 ↔ ∃ Y X, Y < 32 ∧ X < 64 ∧ s.spriteBit x0 y0 rows Y X = true ∧ s.display.cell Y X = false)

/-- D[y][x] is element y × 64 + x of the row-major array, whose 2048 elements are the whole display. -/
def Obligations.DisplayIsRowMajor : Prop :=
  ∀ d : Display, d.rowMajor.length = 2048 ∧
    ∀ y x, y < 32 → x < 64 → d.rowMajor[y * 64 + x]? = some (d.cell y x)

/-! ## Keypad and timers -/

/-- EX9E and EXA1: a value 0 to 0xF in VX selects that key, and the skip is by one word, exactly when it is pressed (EX9E) or not
(EXA1). Nothing else changes. A larger value takes KeyIndexFault(VX) when KEY_INDEX = fault.
Decisions of the spec it rests on: D2, D3, D12.
Conventions of the model in it: log entry 9 (DEDUCED). -/
def Obligations.KeySkips : Prop :=
  ∀ (s : State) (x k : Reg),
    ((s.reg x).toNat = k.val →
      (∃ t, exec (.skp x) s = .next t ∧ t.pc = (if s.keys[k] = true then s.pc + 2 else s.pc) ∧ Frame {} s t) ∧
      (∃ t, exec (.sknp x) s = .next t ∧ t.pc = (if s.keys[k] = true then s.pc else s.pc + 2) ∧ Frame {} s t)) ∧
    (0xF < (s.reg x).toNat → s.cfg.keyIndex = .fault →
      Faults (.skp x) .keyIndexFault (s.reg x).toNat s ∧ Faults (.sknp x) .keyIndexFault (s.reg x).toNat s)

/-- With KEY_INDEX = mask4 EX9E and EXA1 test key VX & 0xF whatever VX is, and never fault.
Decisions of the spec it rests on: D12. -/
def Obligations.KeySkipsUnderMask4 : Prop :=
  ∀ (s : State) (x k : Reg), s.cfg.keyIndex = .mask4 → (s.reg x).toNat % 16 = k.val →
    (∃ t, exec (.skp x) s = .next t ∧ t.pc = (if s.keys[k] = true then s.pc + 2 else s.pc) ∧ Frame {} s t) ∧
    (∃ t, exec (.sknp x) s = .next t ∧ t.pc = (if s.keys[k] = true then s.pc else s.pc + 2) ∧ Frame {} s t)

/-- FX07 reads DT, FX15 writes DT, FX18 writes ST and with it the sound output. -/
def Obligations.TimerRegisterMoves : Prop :=
  ∀ (s : State) (x : Reg),
    (∃ t, exec (.ldFromDt x) s = .next t ∧ t.reg x = s.dt ∧ t.pc = s.pc ∧ Frame { regs := (· = x) } s t) ∧
    (∃ t, exec (.ldToDt x) s = .next t ∧ t.dt = s.reg x ∧ t.pc = s.pc ∧ Frame { delay := True } s t) ∧
    (∃ t, exec (.ldToSt x) s = .next t ∧ t.st = s.reg x ∧ (t.soundActive = true ↔ s.reg x ≠ 0) ∧ t.pc = s.pc ∧
      Frame { sound := True } s t)

/-- FX0A: with keys pressed VX gets the lowest pressed key. With none PC goes back to the instruction and nothing else changes.
Decisions of the spec it rests on: D13. -/
def Obligations.KeyWaitTakesLowestKey : Prop :=
  ∀ (s : State) (x : Reg),
    (∀ k : Reg, s.keys[k] = true → (∀ j < k, s.keys[j] = false) →
      ∃ t, exec (.ldKey x) s = .next t ∧ (t.reg x).toNat = k.val ∧ t.pc = s.pc ∧ Frame { regs := (· = x) } s t) ∧
    ((∀ k : Reg, s.keys[k] = false) →
      ∃ t, exec (.ldKey x) s = .next t ∧ t.pc = s.pc - 2 ∧ Frame {} s t)

/-- While no key is pressed, FX0A at PC makes no progress for the rest of the batch: after all its slots only the place in
the frame has changed.
Decisions of the spec it rests on: D13, D14.
Conventions of the model in it: log entry 2 (DEDUCED). -/
def Obligations.KeyWaitHoldsTheBatch : Prop :=
  ∀ (s : State) (x : Reg) (left : Nat), s.rs = .running → s.phase = .batch left → s.pc.toNat < 0xFFF →
    decode s.cfg.dispatchStrict s.fetchWord = .instr (.ldKey x) → (∀ k : Reg, s.keys[k] = false) →
    Sys2Proof.core.run left s = .next { s with phase := .batch 0 }

/-! ## Index register and memory -/

/-- ANNN, FX1E, FX29: I gets NNN, the sum under the overflow policy, or five times VX unmasked. No flag.
Decisions of the spec it rests on: D4. -/
def Obligations.IndexRegisterWrites : Prop :=
  ∀ (s : State) (x : Reg) (nnn : Word),
    (∃ t, exec (.ldI nnn) s = .next t ∧ t.i = nnn ∧ t.pc = s.pc ∧ Frame { index := True } s t) ∧
    (∃ t, exec (.addI x) s = .next t ∧
      t.i.toNat = (match s.cfg.iOverflow with
        | .wrap12 => (s.i.toNat + (s.reg x).toNat) % 0x1000
        | .clamp12 => min (s.i.toNat + (s.reg x).toNat) 0xFFF) ∧
      t.pc = s.pc ∧ Frame { index := True } s t) ∧
    (∃ t, exec (.ldFont x) s = .next t ∧ t.i.toNat = (s.reg x).toNat * 5 ∧ t.pc = s.pc ∧ Frame { index := True } s t)

/-- FX33: the decimal digits of VX go to I, I + 1, I + 2, each 0 to 9, and nothing else changes. A run past 0xFFF takes
MemoryFault
at the lowest address above it. A run that begins in the font takes MemoryFault(I) when FONT_WRITE = fault.
Decisions of the spec it rests on: D2, D3, D6.
Conventions of the model in it: log entry 9 (DEDUCED). -/
def Obligations.StoreDecimalDigits : Prop :=
  ∀ (s : State) (x : Reg),
    (s.base + 2 ≤ 0xFFF → (s.cfg.fontWrite = .fault → 0x4F < s.base) →
      ∃ t, exec (.ldBcd x) s = .next t ∧
        (t.readByte s.base).toNat = (s.reg x).toNat / 100 ∧
        (t.readByte (s.base + 1)).toNat = (s.reg x).toNat / 10 % 10 ∧
        (t.readByte (s.base + 2)).toNat = (s.reg x).toNat % 10 ∧
        t.pc = s.pc ∧ Frame { mem := fun a => s.base ≤ a ∧ a < s.base + 3 } s t) ∧
    (0xFFF < s.base + 2 → Faults (.ldBcd x) .memoryFault (max s.base 0x1000) s) ∧
    (s.base ≤ 0x4F → s.cfg.fontWrite = .fault → Faults (.ldBcd x) .memoryFault s.base s)

/-- FX55: V0..VX go to I, I + 1, ..., I + X, I and all registers stay, and no other byte changes. It faults as FX33 does.
Decisions of the spec it rests on: D2, D3, D6.
Conventions of the model in it: log entry 9 (DEDUCED). -/
def Obligations.StoreRegisterRange : Prop :=
  ∀ (s : State) (x : Reg),
    (s.base + x.val ≤ 0xFFF → (s.cfg.fontWrite = .fault → 0x4F < s.base) →
      ∃ t, exec (.storeRegs x) s = .next t ∧ (∀ k : Reg, k ≤ x → t.readByte (s.base + k.val) = s.reg k) ∧
        t.pc = s.pc ∧ Frame { mem := fun a => s.base ≤ a ∧ a < s.base + (x.val + 1) } s t) ∧
    (0xFFF < s.base + x.val → Faults (.storeRegs x) .memoryFault (max s.base 0x1000) s) ∧
    (s.base ≤ 0x4F → s.cfg.fontWrite = .fault → Faults (.storeRegs x) .memoryFault s.base s)

/-- FX65: V0..VX are loaded from I, I + 1, ..., I + X, the font included. I, memory and the registers above VX stay. A run past
0xFFF takes MemoryFault at the lowest address above it.
Decisions of the spec it rests on: D2, D3, D5.
Conventions of the model in it: log entry 9 (DEDUCED). -/
def Obligations.LoadRegisterRange : Prop :=
  ∀ (s : State) (x : Reg),
    (s.base + x.val ≤ 0xFFF → ∃ t, exec (.loadRegs x) s = .next t ∧
      (∀ k : Reg, k ≤ x → t.reg k = s.readByte (s.base + k.val)) ∧ t.pc = s.pc ∧ Frame { regs := (· ≤ x) } s t) ∧
    (0xFFF < s.base + x.val → Faults (.loadRegs x) .memoryFault (max s.base 0x1000) s)

/-- Storing V0..VX with FX55 and loading them with FX65 into any register values from the same I gives them back, and I is
unchanged by both.
Decisions of the spec it rests on: D6. -/
def Obligations.StoreThenLoadGivesBack : Prop :=
  ∀ (s : State) (x : Reg) (vs : Vector Byte 16), s.base + x.val ≤ 0xFFF → (s.cfg.fontWrite = .fault → 0x4F < s.base) →
    ∃ t u, exec (.storeRegs x) s = .next t ∧ exec (.loadRegs x) { t with v := vs } = .next u ∧
      (∀ k : Reg, k ≤ x → u.reg k = s.reg k) ∧ (∀ k : Reg, x < k → u.reg k = vs[k]) ∧ u.i = s.i

/-- Self-modifying code needs nothing: after FX55, a fetch at an address it stored to sees the bytes it stored.
Decisions of the spec it rests on: D21. -/
def Obligations.FetchSeesStoredRegisters : Prop :=
  ∀ (s t : State) (x k : Reg) (h : k.val + 1 < 16), exec (.storeRegs x) s = .next t → t.rs ≠ .faulted → k < x →
    ({ t with pc := BitVec.ofNat 16 (s.base + k.val) } : State).fetchWord = wordOfBytes (s.reg k) (s.reg ⟨k.val + 1, h⟩)

/-- Under FONT_WRITE = fault no step of the machine, whatever it is, changes a byte of the font region.
Decisions of the spec it rests on: D6. -/
def Obligations.NoStepWritesTheFont : Prop :=
  ∀ s t : State, s.cfg.fontWrite = .fault → step s = .next t → ∀ a ≤ 0x4F, t.readByte a = s.readByte a

/-! ## Faults -/

/-- Every fault of the execute phase is precise: the state is the one before it plus the fault status and RS.
Decisions of the spec it rests on: D2, D3.
Conventions of the model in it: log entry 9 (DEDUCED). -/
def Obligations.ExecuteFaultsArePrecise : Prop :=
  ∀ (i : Instr) (s t : State), exec i s = .next t → t.fault ≠ s.fault →
    ∃ (c : FaultCode) (n : Nat), c ≠ .none ∧ TakesFault c n s t

/-- Each instruction can raise at most one kind of fault, and most can raise none.
Decisions of the spec it rests on: D2, D3, D5, D6, D12.
Conventions of the model in it: log entry 9 (DEDUCED). -/
def Obligations.EachInstructionRaisesItsOwnFault : Prop :=
  ∀ (i : Instr) (s t : State), s.fault = .none → exec i s = .next t → t.fault ≠ .none →
    t.fault = match i with
      | .ret => .stackUnderflow
      | .call _ => .stackOverflow
      | .skp _ | .sknp _ => .keyIndexFault
      | .drw _ _ _ | .ldBcd _ | .storeRegs _ | .loadRegs _ => .memoryFault
      | _ => .none

/-- Every instruction is available to every program: in a state that the invariant allows, none stops the model. One that takes a
fault answers a next state too, the one after fault entry (R231; log entry 9).
Decisions of the spec it rests on: D3, D23. -/
def Obligations.NoInstructionStops : Prop :=
  ∀ (i : Instr) (s : State), s.Inv → ∃ t, exec i s = .next t

/-! ## Whole-machine rules over all instructions -/

/-- Only DXYN and 00E0 change the display, only FX15 changes DT and only FX18 ST, no instruction changes the keypad, and
none hands the display to the renderer.
Conventions of the model in it: log entry 5 (DESIGN CHOICE: the renderer's copy). -/
def Obligations.OnlyNamedInstructionsTouchDevices : Prop :=
  ∀ (i : Instr) (s t : State), exec i s = .next t →
    (t.display ≠ s.display → i = .cls ∨ ∃ x y n, i = .drw x y n) ∧
    (t.dt ≠ s.dt → ∃ x, i = .ldToDt x) ∧ (t.st ≠ s.st → ∃ x, i = .ldToSt x) ∧
    (t.soundActive ≠ s.soundActive → ∃ x, i = .ldToSt x) ∧
    t.keys = s.keys ∧ t.shown = s.shown ∧ t.renders = s.renders

/-- Only the instructions that name VF as a flag, or as their destination, change VF.
Decisions of the spec it rests on: D9. -/
def Obligations.OnlyFlagInstructionsWriteVf : Prop :=
  ∀ (i : Instr) (s t : State), exec i s = .next t → t.reg VF ≠ s.reg VF →
    match i with
      | .addReg _ _ | .sub _ _ | .shr _ _ | .subn _ _ | .shl _ _ | .drw _ _ _ => True
      | .orReg x _ | .andReg x _ | .xorReg x _ => x = VF ∨ s.cfg.quirkLogicVfReset = true
      | .ldImm x _ | .addImm x _ | .ldReg x _ | .rnd x _ | .ldFromDt x | .ldKey x | .loadRegs x => x = VF
      | _ => False

/-- A program observes keys only through EX9E, EXA1 and FX0A, DT only through FX07, and no instruction reads ST: any other
instruction does the same to the rest of the machine whatever the keypad and the timers hold. -/
def Obligations.InputsAreSeenOnlyByTheirInstructions : Prop :=
  ∀ (i : Instr) (s : State),
    (∀ keys : Keypad, (∀ x, i ≠ .skp x) → (∀ x, i ≠ .sknp x) → (∀ x, i ≠ .ldKey x) →
      exec i { s with keys := keys } = mapNext (fun t => { t with keys := keys }) (exec i s)) ∧
    (∀ dt : Byte, (∀ x, i ≠ .ldFromDt x) →
      mapNext (fun t => { t with dt := 0 }) (exec i { s with dt := dt }) = mapNext (fun t => { t with dt := 0 }) (exec i s)) ∧
    (∀ st : Byte,
      mapNext (fun t => { t with st := 0 }) (exec i { s with st := st }) = mapNext (fun t => { t with st := 0 }) (exec i s))

/-! ## Run control, timers, frames -/

/-- A poll's effect on the run state: an even number of toggles leaves it, an odd number swaps RUNNING and PAUSED, a quit wins
over
all toggles. QUIT and FAULTED stay whatever comes.
Decisions of the spec it rests on: D3, D26. -/
def Obligations.PollMovesRunState : Prop :=
  ∀ (p : Poll) (r : RunState),
    (r = .quit ∨ r = .faulted → r.afterPoll p = r) ∧
    (r = .running ∨ r = .paused → p.quit = true → r.afterPoll p = .quit) ∧
    (p.quit = false → p.pauseToggles % 2 = 0 → r.afterPoll p = r) ∧
    (p.quit = false → p.pauseToggles % 2 = 1 → (r = .running → r.afterPoll p = .paused) ∧
      (r = .paused → r.afterPoll p = .running))

/-- The start of a frame: the queued poll sets the keypad and RS. If RS is then RUNNING a batch of IPF slots begins, otherwise
the next step polls again. No instruction runs, nothing is rendered, no timer ticks.
Decisions of the spec it rests on: D14, D22, D26.
Conventions of the model in it: log entries 2 (DEDUCED), 3 (DESIGN CHOICE: the queue of polls), 19 (DESIGN CHOICE: PAUSED polls
wherever the frame stands). -/
def Obligations.FrameStartsWithPoll : Prop :=
  ∀ (s : State) (p : Poll) (rest : List Poll), s.polls = p :: rest →
    (s.rs = .paused ∨ (s.rs = .running ∧ s.phase = .poll)) → 1 ≤ s.cfg.ips / 60 →
    step s = .next { s with
      keys := p.keys, rs := s.rs.afterPoll p, polls := rest, pollCount := s.pollCount + 1,
      phase := if s.rs.afterPoll p = .running then .batch (s.cfg.ips / 60) else .poll }

/-- While RS is PAUSED a step polls and does nothing else: beside the keypad, RS, the place in the frame and the inputs of later
polls, which the poll writes, every field of the state keeps its value. A poll that unpauses starts a batch of IPF slots (R247) at
the PC where execution stopped.
Decisions of the spec it rests on: D14.
Conventions of the model in it: log entries 2 (DEDUCED), 3, 5, 19 (DESIGN CHOICE). -/
def Obligations.PausedOnlyPolls : Prop :=
  ∀ s t : State, s.rs = .paused → step s = .next t →
    t = { s with keys := t.keys, rs := t.rs, phase := t.phase, polls := t.polls, pollCount := t.pollCount } ∧
    (∀ p rest, s.polls = p :: rest → t.keys = p.keys) ∧ (t.rs = .running → t.phase = .batch (s.cfg.ips / 60))

/-- The end of a frame whose batch ran: the display is handed over once, each timer above 0 goes down by one and one at 0
stays, and the next step polls. Nothing else changes.
Conventions of the model in it: log entries 2 (DEDUCED: the end of a frame is one step), 5 (DESIGN CHOICE: the renderer's copy).
-/
def Obligations.FrameEndRendersAndTicks : Prop :=
  ∀ s : State, s.rs = .running → s.phase = .batch 0 →
    ∃ dt st, dt.toNat = s.dt.toNat - 1 ∧ st.toNat = s.st.toNat - 1 ∧
      step s = .next { s with dt := dt, st := st, shown := some s.display, renders := s.renders + 1, phase := .poll }

/-- A batch that takes no fault runs all its slots and ends where the frame's render and tick are due. In it no poll, render or
tick happens: the keypad, the renderer's copy and the inputs of later polls are the same at its end, and so is a timer that no
instruction of the batch writes. One slot changes DT only where it runs FX15 and ST only where it runs FX18, to the value of VX.
Decisions of the spec it rests on: D3, D14.
Conventions of the model in it: log entries 2 (DEDUCED), 3, 5 (DESIGN CHOICE: the inputs of later polls, the renderer's copy). -/
def Obligations.BatchRunsAllItsSlots : Prop :=
  (∀ (left : Nat) (s t : State), s.rs = .running → s.phase = .batch left → s.fault = .none →
    Sys2Proof.core.run left s = .next t → t.fault = .none →
    t.phase = .batch 0 ∧ t.rs = .running ∧ t.keys = s.keys ∧ t.shown = s.shown ∧ t.renders = s.renders ∧
      t.polls = s.polls ∧ t.pollCount = s.pollCount ∧
      ((∀ k u, k < left → Sys2Proof.core.run k s = .next u → ∀ x, ¬ u.Decodes (.ldToDt x)) → t.dt = s.dt) ∧
      ((∀ k u, k < left → Sys2Proof.core.run k s = .next u → ∀ x, ¬ u.Decodes (.ldToSt x)) → t.st = s.st)) ∧
  ∀ (left : Nat) (s t : State), s.rs = .running → s.phase = .batch (left + 1) → step s = .next t →
    (t.dt = s.dt ∨ ∃ x, s.Decodes (.ldToDt x) ∧ t.dt = s.reg x) ∧
    (t.st = s.st ∨ ∃ x, s.Decodes (.ldToSt x) ∧ t.st = s.reg x)

/-- RS leaves RUNNING only by a poll or by a fault, and a step of a batch that takes no fault leaves it RUNNING.
Decisions of the spec it rests on: D3.
Conventions of the model in it: log entries 2, 9 (DEDUCED). -/
def Obligations.RunStateChangesOnlyByPollOrFault : Prop :=
  ∀ s t : State, s.fault = .none → step s = .next t → t.rs ≠ s.rs →
    (s.rs = .paused ∨ (s.rs = .running ∧ s.phase = .poll)) ∨ (s.rs = .running ∧ t.rs = .faulted ∧ t.fault ≠ .none)

/-- QUIT and FAULTED are terminal: whatever is queued, the step leaves the state as it is.
Decisions of the spec it rests on: D3, D22.
Conventions of the model in it: log entry 8 (DESIGN CHOICE: a step that changes nothing). -/
def Obligations.QuitAndFaultedAreTerminal : Prop :=
  ∀ s : State, s.rs = .quit ∨ s.rs = .faulted → step s = .next s

/-- The parameters of R8 are fixed for the machine: no step changes them.
Conventions of the model in it: log entry 1 (DESIGN CHOICE: the parameters are a field of State). -/
def Obligations.NoStepChangesConfiguration : Prop :=
  ∀ s t : State, step s = .next t → t.cfg = s.cfg

/-! ## Reset and the invariant -/

/-- Reset with any ROM image of at most 3584 bytes: the values of R39, the font, the image from 0x200, INIT_FILL elsewhere.
Decisions of the spec it rests on: D2, D16, D17, D18, D19, D24, D27.
Conventions of the model in it: log entries 6, 14 (DEDUCED), 11 (DESIGN CHOICE: the argument of boot). -/
def Obligations.ResetLoadsFontAndRom : Prop :=
  ∀ (cfg : Config) (rom : List Byte), rom.length ≤ 3584 → 1 ≤ cfg.ips / 60 →
    ∃ s, boot cfg ⟨true, some rom⟩ = .next s ∧
      (∀ x, s.reg x = 0) ∧ s.i = 0 ∧ s.pc = 0x200 ∧ s.sp = 0 ∧ s.slots = List.replicate cfg.stackDepth 0 ∧
      s.dt = 0 ∧ s.st = 0 ∧ (∀ y x, s.display.cell y x = false) ∧ (∀ k : Reg, s.keys[k] = false) ∧ s.rs = .running ∧
      s.fault = .none ∧ s.faultPc = 0 ∧ s.faultInfo = 0 ∧ s.cfg = cfg ∧
      (∀ d r : Nat, (hd : d < 16) → (hr : r < 5) → s.readByte (5 * d + r) = cfg.font[d][r]) ∧
      (∀ k, (h : k < rom.length) → s.readByte (0x200 + k) = rom[k]) ∧
      (∀ a, 0x50 ≤ a → a < 0x200 ∨ 0x200 + rom.length ≤ a → s.readByte a = cfg.initFill)

/-- A missing, unreadable or oversized image, a failed host setup and IPF = 0 keep the core from starting. Which of them
is reported where several hold (setup, then image, then IPF) is the model's choice (log entry 11).
Decisions of the spec it rests on: D14, D27. -/
def Obligations.BootRefusesBadLaunch : Prop :=
  ∀ (cfg : Config) (rom : List Byte),
    boot cfg ⟨true, none⟩ = .refused .romLoadFailure ∧
    (3584 < rom.length → boot cfg ⟨true, some rom⟩ = .refused .romLoadFailure) ∧
    (rom.length ≤ 3584 → cfg.ips / 60 = 0 → boot cfg ⟨true, some rom⟩ = .refused .ipfZero) ∧
    boot cfg ⟨false, some rom⟩ = .refused .initializationFailure

/-- The state after reset meets the invariant.
Conventions of the model in it: log entries 2, 16 (DEDUCED). -/
def Obligations.ResetMeetsInvariant : Prop := State.reset.Inv

/-- Every machine that boots, whatever its parameters and image, starts in the invariant.
Conventions of the model in it: log entries 2, 16 (DEDUCED), 11 (DESIGN CHOICE). -/
def Obligations.BootMeetsInvariant : Prop :=
  ∀ (cfg : Config) (l : Launch) (s : State), boot cfg l = .next s → s.Inv

/-- Every step keeps the invariant: memory stays canonical and the font intact, the stack keeps its size and SP its range, I stays
below 0x1000, PC at or below 0x10FE, and RS agrees with the fault status.
Conventions of the model in it: log entries 2, 9, 16 (DEDUCED), 8, 19 (DESIGN CHOICE). -/
def Obligations.StepKeepsInvariant : Prop :=
  ∀ s t : State, s.Inv → step s = .next t → t.Inv

/-- From a state in the invariant every step answers a next state: the model neither faults nor refuses. That is no progress of
the machine: in QUIT and FAULTED the next state is the same state (log entry 8), and a fault is taken as a next state (log entry
9).
Decisions of the spec it rests on: D3, D22. -/
def Obligations.StepAnswersNextState : Prop :=
  ∀ s : State, s.Inv → ∃ t, step s = .next t
end

