-- ==== Sys2Proof/Laws/Decode.lean ====
section
/-! SUPPORT. The fields of a word as arithmetic, and what each field of an assembled word is. -/

namespace Sys2Proof

/-! ### Fields as quotients and remainders (00_scope.md R13) -/

theorem toNat_field (w : Word) (lo width : Nat) : (w.extractLsb' lo width).toNat = w.toNat / 2 ^ lo % 2 ^ width := by
  simp [Nat.shiftRight_eq_div_pow]

theorem fieldCategory_eq (w : Word) : fieldCategory w = w.toNat / 0x1000 % 16 := toNat_field w 12 4

theorem fieldX_val (w : Word) : (fieldX w).val = w.toNat / 0x100 % 16 := toNat_field w 8 4

theorem fieldY_val (w : Word) : (fieldY w).val = w.toNat / 0x10 % 16 := toNat_field w 4 4

theorem fieldN_eq (w : Word) : fieldN w = w.toNat % 16 := by
  have h := toNat_field w 0 4
  rwa [Nat.pow_zero, Nat.div_one] at h

theorem fieldNN_toNat (w : Word) : (fieldNN w).toNat = w.toNat % 0x100 := by
  have h := toNat_field w 0 8
  rwa [Nat.pow_zero, Nat.div_one] at h

theorem fieldNNN_toNat (w : Word) : (fieldNNN w).toNat = w.toNat % 0x1000 := by
  unfold fieldNNN
  rw [BitVec.toNat_setWidth, toNat_field]
  omega

theorem fieldNNN_lt (w : Word) : (fieldNNN w).toNat < 0x1000 := by
  rw [fieldNNN_toNat]
  omega

theorem fieldN_lt (w : Word) : fieldN w < 16 := by
  rw [fieldN_eq]
  omega

/-! ### Bytes of a word (20_memory.md R52) -/

theorem wordOfBytes_toNat (b c : Byte) : (wordOfBytes b c).toNat = b.toNat * 0x100 + c.toNat := by
  unfold wordOfBytes
  rw [BitVec.toNat_append, Nat.shiftLeft_eq, Nat.mul_comm b.toNat, ← Nat.two_pow_add_eq_or_of_lt c.isLt]

@[simp] theorem wordOfBytes_highByte_lowByte (w : Word) : wordOfBytes (highByte w) (lowByte w) = w := by
  apply BitVec.eq_of_toNat_eq
  rw [wordOfBytes_toNat, highByte, lowByte, toNat_field, toNat_field]
  have := w.isLt
  omega

/-! ### Assembled words -/

theorem assemble_toNat {f low : Nat} (hf : f < 16) (hl : low < 0x1000) : (assemble f low).toNat = f * 0x1000 + low := by
  simp only [assemble, BitVec.toNat_ofNat]
  omega

theorem assembleNNN_toNat {f : Nat} (hf : f < 16) (nnn : Word) :
    (assembleNNN f nnn).toNat = f * 0x1000 + nnn.toNat % 0x1000 := assemble_toNat hf (by omega)

theorem assembleXNN_toNat {f : Nat} (hf : f < 16) (x : Reg) (nn : Byte) :
    (assembleXNN f x nn).toNat = f * 0x1000 + (x.val * 0x100 + nn.toNat) := assemble_toNat hf (by omega)

theorem assembleXYN_toNat {f : Nat} (hf : f < 16) (x y : Reg) (n : Nat) :
    (assembleXYN f x y n).toNat = f * 0x1000 + (x.val * 0x100 + y.val * 0x10 + n % 0x10) :=
  assemble_toNat hf (by omega)

theorem category_assembleNNN {f : Nat} (hf : f < 16) (nnn : Word) : fieldCategory (assembleNNN f nnn) = f := by
  rw [fieldCategory_eq, assembleNNN_toNat hf]
  omega

theorem address_assembleNNN {f : Nat} (hf : f < 16) {nnn : Word} (h : nnn.toNat < 0x1000) :
    fieldNNN (assembleNNN f nnn) = nnn := by
  apply BitVec.eq_of_toNat_eq
  rw [fieldNNN_toNat, assembleNNN_toNat hf]
  omega

theorem category_assembleXNN {f : Nat} (hf : f < 16) (x : Reg) (nn : Byte) : fieldCategory (assembleXNN f x nn) = f := by
  rw [fieldCategory_eq, assembleXNN_toNat hf]
  omega

theorem register_assembleXNN {f : Nat} (hf : f < 16) (x : Reg) (nn : Byte) : fieldX (assembleXNN f x nn) = x := by
  apply Fin.ext
  rw [fieldX_val, assembleXNN_toNat hf]
  omega

theorem constant_assembleXNN {f : Nat} (hf : f < 16) (x : Reg) (nn : Byte) : fieldNN (assembleXNN f x nn) = nn := by
  apply BitVec.eq_of_toNat_eq
  rw [fieldNN_toNat, assembleXNN_toNat hf]
  omega

theorem category_assembleXYN {f : Nat} (hf : f < 16) (x y : Reg) (n : Nat) : fieldCategory (assembleXYN f x y n) = f := by
  rw [fieldCategory_eq, assembleXYN_toNat hf]
  omega

theorem registers_assembleXYN {f : Nat} (hf : f < 16) (x y : Reg) (n : Nat) :
    fieldX (assembleXYN f x y n) = x ∧ fieldY (assembleXYN f x y n) = y := by
  constructor <;> apply Fin.ext
  · rw [fieldX_val, assembleXYN_toNat hf]
    omega
  · rw [fieldY_val, assembleXYN_toNat hf]
    omega

theorem nibble_assembleXYN {f : Nat} (hf : f < 16) (x y : Reg) {n : Nat} (hn : n < 16) :
    fieldN (assembleXYN f x y n) = n := by
  rw [fieldN_eq, assembleXYN_toNat hf]
  omega

end Sys2Proof
end

