-- ==== Sys2Proof/Laws/State.lean ====
section
/-! SUPPORT. One lemma for each field of State and each update, true by unfolding. -/

namespace Sys2Proof.Machine

variable (s : State)

/-! ### `State.setReg` -/

@[simp] theorem State.setReg_cfg (x : Reg) (b : Byte) : (s.setReg x b).cfg = s.cfg := rfl
@[simp] theorem State.setReg_v (x : Reg) (b : Byte) : (s.setReg x b).v = s.v.set x b := rfl
@[simp] theorem State.setReg_i (x : Reg) (b : Byte) : (s.setReg x b).i = s.i := rfl
@[simp] theorem State.setReg_pc (x : Reg) (b : Byte) : (s.setReg x b).pc = s.pc := rfl
@[simp] theorem State.setReg_sp (x : Reg) (b : Byte) : (s.setReg x b).sp = s.sp := rfl
@[simp] theorem State.setReg_slots (x : Reg) (b : Byte) : (s.setReg x b).slots = s.slots := rfl
@[simp] theorem State.setReg_dt (x : Reg) (b : Byte) : (s.setReg x b).dt = s.dt := rfl
@[simp] theorem State.setReg_st (x : Reg) (b : Byte) : (s.setReg x b).st = s.st := rfl
@[simp] theorem State.setReg_keys (x : Reg) (b : Byte) : (s.setReg x b).keys = s.keys := rfl
@[simp] theorem State.setReg_display (x : Reg) (b : Byte) : (s.setReg x b).display = s.display := rfl
@[simp] theorem State.setReg_rs (x : Reg) (b : Byte) : (s.setReg x b).rs = s.rs := rfl
@[simp] theorem State.setReg_fault (x : Reg) (b : Byte) : (s.setReg x b).fault = s.fault := rfl
@[simp] theorem State.setReg_faultPc (x : Reg) (b : Byte) : (s.setReg x b).faultPc = s.faultPc := rfl
@[simp] theorem State.setReg_faultInfo (x : Reg) (b : Byte) : (s.setReg x b).faultInfo = s.faultInfo := rfl
@[simp] theorem State.setReg_mem (x : Reg) (b : Byte) : (s.setReg x b).mem = s.mem := rfl
@[simp] theorem State.setReg_phase (x : Reg) (b : Byte) : (s.setReg x b).phase = s.phase := rfl
@[simp] theorem State.setReg_polls (x : Reg) (b : Byte) : (s.setReg x b).polls = s.polls := rfl
@[simp] theorem State.setReg_pollCount (x : Reg) (b : Byte) : (s.setReg x b).pollCount = s.pollCount := rfl
@[simp] theorem State.setReg_rnd (x : Reg) (b : Byte) : (s.setReg x b).rnd = s.rnd := rfl
@[simp] theorem State.setReg_drawCount (x : Reg) (b : Byte) : (s.setReg x b).drawCount = s.drawCount := rfl
@[simp] theorem State.setReg_shown (x : Reg) (b : Byte) : (s.setReg x b).shown = s.shown := rfl
@[simp] theorem State.setReg_renders (x : Reg) (b : Byte) : (s.setReg x b).renders = s.renders := rfl

/-! ### `State.setRegs` -/

@[simp] theorem State.setRegs_cfg (vs : Vector Byte 16) : (s.setRegs vs).cfg = s.cfg := rfl
@[simp] theorem State.setRegs_v (vs : Vector Byte 16) : (s.setRegs vs).v = vs := rfl
@[simp] theorem State.setRegs_i (vs : Vector Byte 16) : (s.setRegs vs).i = s.i := rfl
@[simp] theorem State.setRegs_pc (vs : Vector Byte 16) : (s.setRegs vs).pc = s.pc := rfl
@[simp] theorem State.setRegs_sp (vs : Vector Byte 16) : (s.setRegs vs).sp = s.sp := rfl
@[simp] theorem State.setRegs_slots (vs : Vector Byte 16) : (s.setRegs vs).slots = s.slots := rfl
@[simp] theorem State.setRegs_dt (vs : Vector Byte 16) : (s.setRegs vs).dt = s.dt := rfl
@[simp] theorem State.setRegs_st (vs : Vector Byte 16) : (s.setRegs vs).st = s.st := rfl
@[simp] theorem State.setRegs_keys (vs : Vector Byte 16) : (s.setRegs vs).keys = s.keys := rfl
@[simp] theorem State.setRegs_display (vs : Vector Byte 16) : (s.setRegs vs).display = s.display := rfl
@[simp] theorem State.setRegs_rs (vs : Vector Byte 16) : (s.setRegs vs).rs = s.rs := rfl
@[simp] theorem State.setRegs_fault (vs : Vector Byte 16) : (s.setRegs vs).fault = s.fault := rfl
@[simp] theorem State.setRegs_faultPc (vs : Vector Byte 16) : (s.setRegs vs).faultPc = s.faultPc := rfl
@[simp] theorem State.setRegs_faultInfo (vs : Vector Byte 16) : (s.setRegs vs).faultInfo = s.faultInfo := rfl
@[simp] theorem State.setRegs_mem (vs : Vector Byte 16) : (s.setRegs vs).mem = s.mem := rfl
@[simp] theorem State.setRegs_phase (vs : Vector Byte 16) : (s.setRegs vs).phase = s.phase := rfl
@[simp] theorem State.setRegs_polls (vs : Vector Byte 16) : (s.setRegs vs).polls = s.polls := rfl
@[simp] theorem State.setRegs_pollCount (vs : Vector Byte 16) : (s.setRegs vs).pollCount = s.pollCount := rfl
@[simp] theorem State.setRegs_rnd (vs : Vector Byte 16) : (s.setRegs vs).rnd = s.rnd := rfl
@[simp] theorem State.setRegs_drawCount (vs : Vector Byte 16) : (s.setRegs vs).drawCount = s.drawCount := rfl
@[simp] theorem State.setRegs_shown (vs : Vector Byte 16) : (s.setRegs vs).shown = s.shown := rfl
@[simp] theorem State.setRegs_renders (vs : Vector Byte 16) : (s.setRegs vs).renders = s.renders := rfl

/-! ### `State.setPc` -/

@[simp] theorem State.setPc_cfg (w : Word) : (s.setPc w).cfg = s.cfg := rfl
@[simp] theorem State.setPc_v (w : Word) : (s.setPc w).v = s.v := rfl
@[simp] theorem State.setPc_i (w : Word) : (s.setPc w).i = s.i := rfl
@[simp] theorem State.setPc_pc (w : Word) : (s.setPc w).pc = w := rfl
@[simp] theorem State.setPc_sp (w : Word) : (s.setPc w).sp = s.sp := rfl
@[simp] theorem State.setPc_slots (w : Word) : (s.setPc w).slots = s.slots := rfl
@[simp] theorem State.setPc_dt (w : Word) : (s.setPc w).dt = s.dt := rfl
@[simp] theorem State.setPc_st (w : Word) : (s.setPc w).st = s.st := rfl
@[simp] theorem State.setPc_keys (w : Word) : (s.setPc w).keys = s.keys := rfl
@[simp] theorem State.setPc_display (w : Word) : (s.setPc w).display = s.display := rfl
@[simp] theorem State.setPc_rs (w : Word) : (s.setPc w).rs = s.rs := rfl
@[simp] theorem State.setPc_fault (w : Word) : (s.setPc w).fault = s.fault := rfl
@[simp] theorem State.setPc_faultPc (w : Word) : (s.setPc w).faultPc = s.faultPc := rfl
@[simp] theorem State.setPc_faultInfo (w : Word) : (s.setPc w).faultInfo = s.faultInfo := rfl
@[simp] theorem State.setPc_mem (w : Word) : (s.setPc w).mem = s.mem := rfl
@[simp] theorem State.setPc_phase (w : Word) : (s.setPc w).phase = s.phase := rfl
@[simp] theorem State.setPc_polls (w : Word) : (s.setPc w).polls = s.polls := rfl
@[simp] theorem State.setPc_pollCount (w : Word) : (s.setPc w).pollCount = s.pollCount := rfl
@[simp] theorem State.setPc_rnd (w : Word) : (s.setPc w).rnd = s.rnd := rfl
@[simp] theorem State.setPc_drawCount (w : Word) : (s.setPc w).drawCount = s.drawCount := rfl
@[simp] theorem State.setPc_shown (w : Word) : (s.setPc w).shown = s.shown := rfl
@[simp] theorem State.setPc_renders (w : Word) : (s.setPc w).renders = s.renders := rfl

/-! ### `State.setI` -/

@[simp] theorem State.setI_cfg (w : Word) : (s.setI w).cfg = s.cfg := rfl
@[simp] theorem State.setI_v (w : Word) : (s.setI w).v = s.v := rfl
@[simp] theorem State.setI_i (w : Word) : (s.setI w).i = w := rfl
@[simp] theorem State.setI_pc (w : Word) : (s.setI w).pc = s.pc := rfl
@[simp] theorem State.setI_sp (w : Word) : (s.setI w).sp = s.sp := rfl
@[simp] theorem State.setI_slots (w : Word) : (s.setI w).slots = s.slots := rfl
@[simp] theorem State.setI_dt (w : Word) : (s.setI w).dt = s.dt := rfl
@[simp] theorem State.setI_st (w : Word) : (s.setI w).st = s.st := rfl
@[simp] theorem State.setI_keys (w : Word) : (s.setI w).keys = s.keys := rfl
@[simp] theorem State.setI_display (w : Word) : (s.setI w).display = s.display := rfl
@[simp] theorem State.setI_rs (w : Word) : (s.setI w).rs = s.rs := rfl
@[simp] theorem State.setI_fault (w : Word) : (s.setI w).fault = s.fault := rfl
@[simp] theorem State.setI_faultPc (w : Word) : (s.setI w).faultPc = s.faultPc := rfl
@[simp] theorem State.setI_faultInfo (w : Word) : (s.setI w).faultInfo = s.faultInfo := rfl
@[simp] theorem State.setI_mem (w : Word) : (s.setI w).mem = s.mem := rfl
@[simp] theorem State.setI_phase (w : Word) : (s.setI w).phase = s.phase := rfl
@[simp] theorem State.setI_polls (w : Word) : (s.setI w).polls = s.polls := rfl
@[simp] theorem State.setI_pollCount (w : Word) : (s.setI w).pollCount = s.pollCount := rfl
@[simp] theorem State.setI_rnd (w : Word) : (s.setI w).rnd = s.rnd := rfl
@[simp] theorem State.setI_drawCount (w : Word) : (s.setI w).drawCount = s.drawCount := rfl
@[simp] theorem State.setI_shown (w : Word) : (s.setI w).shown = s.shown := rfl
@[simp] theorem State.setI_renders (w : Word) : (s.setI w).renders = s.renders := rfl

/-! ### `State.setDt` -/

@[simp] theorem State.setDt_cfg (b : Byte) : (s.setDt b).cfg = s.cfg := rfl
@[simp] theorem State.setDt_v (b : Byte) : (s.setDt b).v = s.v := rfl
@[simp] theorem State.setDt_i (b : Byte) : (s.setDt b).i = s.i := rfl
@[simp] theorem State.setDt_pc (b : Byte) : (s.setDt b).pc = s.pc := rfl
@[simp] theorem State.setDt_sp (b : Byte) : (s.setDt b).sp = s.sp := rfl
@[simp] theorem State.setDt_slots (b : Byte) : (s.setDt b).slots = s.slots := rfl
@[simp] theorem State.setDt_dt (b : Byte) : (s.setDt b).dt = b := rfl
@[simp] theorem State.setDt_st (b : Byte) : (s.setDt b).st = s.st := rfl
@[simp] theorem State.setDt_keys (b : Byte) : (s.setDt b).keys = s.keys := rfl
@[simp] theorem State.setDt_display (b : Byte) : (s.setDt b).display = s.display := rfl
@[simp] theorem State.setDt_rs (b : Byte) : (s.setDt b).rs = s.rs := rfl
@[simp] theorem State.setDt_fault (b : Byte) : (s.setDt b).fault = s.fault := rfl
@[simp] theorem State.setDt_faultPc (b : Byte) : (s.setDt b).faultPc = s.faultPc := rfl
@[simp] theorem State.setDt_faultInfo (b : Byte) : (s.setDt b).faultInfo = s.faultInfo := rfl
@[simp] theorem State.setDt_mem (b : Byte) : (s.setDt b).mem = s.mem := rfl
@[simp] theorem State.setDt_phase (b : Byte) : (s.setDt b).phase = s.phase := rfl
@[simp] theorem State.setDt_polls (b : Byte) : (s.setDt b).polls = s.polls := rfl
@[simp] theorem State.setDt_pollCount (b : Byte) : (s.setDt b).pollCount = s.pollCount := rfl
@[simp] theorem State.setDt_rnd (b : Byte) : (s.setDt b).rnd = s.rnd := rfl
@[simp] theorem State.setDt_drawCount (b : Byte) : (s.setDt b).drawCount = s.drawCount := rfl
@[simp] theorem State.setDt_shown (b : Byte) : (s.setDt b).shown = s.shown := rfl
@[simp] theorem State.setDt_renders (b : Byte) : (s.setDt b).renders = s.renders := rfl

/-! ### `State.setSt` -/

@[simp] theorem State.setSt_cfg (b : Byte) : (s.setSt b).cfg = s.cfg := rfl
@[simp] theorem State.setSt_v (b : Byte) : (s.setSt b).v = s.v := rfl
@[simp] theorem State.setSt_i (b : Byte) : (s.setSt b).i = s.i := rfl
@[simp] theorem State.setSt_pc (b : Byte) : (s.setSt b).pc = s.pc := rfl
@[simp] theorem State.setSt_sp (b : Byte) : (s.setSt b).sp = s.sp := rfl
@[simp] theorem State.setSt_slots (b : Byte) : (s.setSt b).slots = s.slots := rfl
@[simp] theorem State.setSt_dt (b : Byte) : (s.setSt b).dt = s.dt := rfl
@[simp] theorem State.setSt_st (b : Byte) : (s.setSt b).st = b := rfl
@[simp] theorem State.setSt_keys (b : Byte) : (s.setSt b).keys = s.keys := rfl
@[simp] theorem State.setSt_display (b : Byte) : (s.setSt b).display = s.display := rfl
@[simp] theorem State.setSt_rs (b : Byte) : (s.setSt b).rs = s.rs := rfl
@[simp] theorem State.setSt_fault (b : Byte) : (s.setSt b).fault = s.fault := rfl
@[simp] theorem State.setSt_faultPc (b : Byte) : (s.setSt b).faultPc = s.faultPc := rfl
@[simp] theorem State.setSt_faultInfo (b : Byte) : (s.setSt b).faultInfo = s.faultInfo := rfl
@[simp] theorem State.setSt_mem (b : Byte) : (s.setSt b).mem = s.mem := rfl
@[simp] theorem State.setSt_phase (b : Byte) : (s.setSt b).phase = s.phase := rfl
@[simp] theorem State.setSt_polls (b : Byte) : (s.setSt b).polls = s.polls := rfl
@[simp] theorem State.setSt_pollCount (b : Byte) : (s.setSt b).pollCount = s.pollCount := rfl
@[simp] theorem State.setSt_rnd (b : Byte) : (s.setSt b).rnd = s.rnd := rfl
@[simp] theorem State.setSt_drawCount (b : Byte) : (s.setSt b).drawCount = s.drawCount := rfl
@[simp] theorem State.setSt_shown (b : Byte) : (s.setSt b).shown = s.shown := rfl
@[simp] theorem State.setSt_renders (b : Byte) : (s.setSt b).renders = s.renders := rfl

/-! ### `State.setDisplay` -/

@[simp] theorem State.setDisplay_cfg (d : Display) : (s.setDisplay d).cfg = s.cfg := rfl
@[simp] theorem State.setDisplay_v (d : Display) : (s.setDisplay d).v = s.v := rfl
@[simp] theorem State.setDisplay_i (d : Display) : (s.setDisplay d).i = s.i := rfl
@[simp] theorem State.setDisplay_pc (d : Display) : (s.setDisplay d).pc = s.pc := rfl
@[simp] theorem State.setDisplay_sp (d : Display) : (s.setDisplay d).sp = s.sp := rfl
@[simp] theorem State.setDisplay_slots (d : Display) : (s.setDisplay d).slots = s.slots := rfl
@[simp] theorem State.setDisplay_dt (d : Display) : (s.setDisplay d).dt = s.dt := rfl
@[simp] theorem State.setDisplay_st (d : Display) : (s.setDisplay d).st = s.st := rfl
@[simp] theorem State.setDisplay_keys (d : Display) : (s.setDisplay d).keys = s.keys := rfl
@[simp] theorem State.setDisplay_display (d : Display) : (s.setDisplay d).display = d := rfl
@[simp] theorem State.setDisplay_rs (d : Display) : (s.setDisplay d).rs = s.rs := rfl
@[simp] theorem State.setDisplay_fault (d : Display) : (s.setDisplay d).fault = s.fault := rfl
@[simp] theorem State.setDisplay_faultPc (d : Display) : (s.setDisplay d).faultPc = s.faultPc := rfl
@[simp] theorem State.setDisplay_faultInfo (d : Display) : (s.setDisplay d).faultInfo = s.faultInfo := rfl
@[simp] theorem State.setDisplay_mem (d : Display) : (s.setDisplay d).mem = s.mem := rfl
@[simp] theorem State.setDisplay_phase (d : Display) : (s.setDisplay d).phase = s.phase := rfl
@[simp] theorem State.setDisplay_polls (d : Display) : (s.setDisplay d).polls = s.polls := rfl
@[simp] theorem State.setDisplay_pollCount (d : Display) : (s.setDisplay d).pollCount = s.pollCount := rfl
@[simp] theorem State.setDisplay_rnd (d : Display) : (s.setDisplay d).rnd = s.rnd := rfl
@[simp] theorem State.setDisplay_drawCount (d : Display) : (s.setDisplay d).drawCount = s.drawCount := rfl
@[simp] theorem State.setDisplay_shown (d : Display) : (s.setDisplay d).shown = s.shown := rfl
@[simp] theorem State.setDisplay_renders (d : Display) : (s.setDisplay d).renders = s.renders := rfl

/-! ### `State.writeByte` -/

@[simp] theorem State.writeByte_cfg (a : Nat) (b : Byte) : (s.writeByte a b).cfg = s.cfg := rfl
@[simp] theorem State.writeByte_v (a : Nat) (b : Byte) : (s.writeByte a b).v = s.v := rfl
@[simp] theorem State.writeByte_i (a : Nat) (b : Byte) : (s.writeByte a b).i = s.i := rfl
@[simp] theorem State.writeByte_pc (a : Nat) (b : Byte) : (s.writeByte a b).pc = s.pc := rfl
@[simp] theorem State.writeByte_sp (a : Nat) (b : Byte) : (s.writeByte a b).sp = s.sp := rfl
@[simp] theorem State.writeByte_slots (a : Nat) (b : Byte) : (s.writeByte a b).slots = s.slots := rfl
@[simp] theorem State.writeByte_dt (a : Nat) (b : Byte) : (s.writeByte a b).dt = s.dt := rfl
@[simp] theorem State.writeByte_st (a : Nat) (b : Byte) : (s.writeByte a b).st = s.st := rfl
@[simp] theorem State.writeByte_keys (a : Nat) (b : Byte) : (s.writeByte a b).keys = s.keys := rfl
@[simp] theorem State.writeByte_display (a : Nat) (b : Byte) : (s.writeByte a b).display = s.display := rfl
@[simp] theorem State.writeByte_rs (a : Nat) (b : Byte) : (s.writeByte a b).rs = s.rs := rfl
@[simp] theorem State.writeByte_fault (a : Nat) (b : Byte) : (s.writeByte a b).fault = s.fault := rfl
@[simp] theorem State.writeByte_faultPc (a : Nat) (b : Byte) : (s.writeByte a b).faultPc = s.faultPc := rfl
@[simp] theorem State.writeByte_faultInfo (a : Nat) (b : Byte) : (s.writeByte a b).faultInfo = s.faultInfo := rfl
@[simp] theorem State.writeByte_mem (a : Nat) (b : Byte) : (s.writeByte a b).mem = Memory.write s.cfg.resetByte s.mem a b := rfl
@[simp] theorem State.writeByte_phase (a : Nat) (b : Byte) : (s.writeByte a b).phase = s.phase := rfl
@[simp] theorem State.writeByte_polls (a : Nat) (b : Byte) : (s.writeByte a b).polls = s.polls := rfl
@[simp] theorem State.writeByte_pollCount (a : Nat) (b : Byte) : (s.writeByte a b).pollCount = s.pollCount := rfl
@[simp] theorem State.writeByte_rnd (a : Nat) (b : Byte) : (s.writeByte a b).rnd = s.rnd := rfl
@[simp] theorem State.writeByte_drawCount (a : Nat) (b : Byte) : (s.writeByte a b).drawCount = s.drawCount := rfl
@[simp] theorem State.writeByte_shown (a : Nat) (b : Byte) : (s.writeByte a b).shown = s.shown := rfl
@[simp] theorem State.writeByte_renders (a : Nat) (b : Byte) : (s.writeByte a b).renders = s.renders := rfl

/-! ### `State.push` -/

@[simp] theorem State.push_cfg (w : Word) : (s.push w).cfg = s.cfg := rfl
@[simp] theorem State.push_v (w : Word) : (s.push w).v = s.v := rfl
@[simp] theorem State.push_i (w : Word) : (s.push w).i = s.i := rfl
@[simp] theorem State.push_pc (w : Word) : (s.push w).pc = s.pc := rfl
@[simp] theorem State.push_sp (w : Word) : (s.push w).sp = s.sp + 1 := rfl
@[simp] theorem State.push_slots (w : Word) : (s.push w).slots = s.slots.set s.sp w := rfl
@[simp] theorem State.push_dt (w : Word) : (s.push w).dt = s.dt := rfl
@[simp] theorem State.push_st (w : Word) : (s.push w).st = s.st := rfl
@[simp] theorem State.push_keys (w : Word) : (s.push w).keys = s.keys := rfl
@[simp] theorem State.push_display (w : Word) : (s.push w).display = s.display := rfl
@[simp] theorem State.push_rs (w : Word) : (s.push w).rs = s.rs := rfl
@[simp] theorem State.push_fault (w : Word) : (s.push w).fault = s.fault := rfl
@[simp] theorem State.push_faultPc (w : Word) : (s.push w).faultPc = s.faultPc := rfl
@[simp] theorem State.push_faultInfo (w : Word) : (s.push w).faultInfo = s.faultInfo := rfl
@[simp] theorem State.push_mem (w : Word) : (s.push w).mem = s.mem := rfl
@[simp] theorem State.push_phase (w : Word) : (s.push w).phase = s.phase := rfl
@[simp] theorem State.push_polls (w : Word) : (s.push w).polls = s.polls := rfl
@[simp] theorem State.push_pollCount (w : Word) : (s.push w).pollCount = s.pollCount := rfl
@[simp] theorem State.push_rnd (w : Word) : (s.push w).rnd = s.rnd := rfl
@[simp] theorem State.push_drawCount (w : Word) : (s.push w).drawCount = s.drawCount := rfl
@[simp] theorem State.push_shown (w : Word) : (s.push w).shown = s.shown := rfl
@[simp] theorem State.push_renders (w : Word) : (s.push w).renders = s.renders := rfl

/-! ### `State.pop` -/

@[simp] theorem State.pop_cfg : (s.pop).cfg = s.cfg := rfl
@[simp] theorem State.pop_v : (s.pop).v = s.v := rfl
@[simp] theorem State.pop_i : (s.pop).i = s.i := rfl
@[simp] theorem State.pop_pc : (s.pop).pc = s.pc := rfl
@[simp] theorem State.pop_sp : (s.pop).sp = s.sp - 1 := rfl
@[simp] theorem State.pop_slots : (s.pop).slots = s.slots := rfl
@[simp] theorem State.pop_dt : (s.pop).dt = s.dt := rfl
@[simp] theorem State.pop_st : (s.pop).st = s.st := rfl
@[simp] theorem State.pop_keys : (s.pop).keys = s.keys := rfl
@[simp] theorem State.pop_display : (s.pop).display = s.display := rfl
@[simp] theorem State.pop_rs : (s.pop).rs = s.rs := rfl
@[simp] theorem State.pop_fault : (s.pop).fault = s.fault := rfl
@[simp] theorem State.pop_faultPc : (s.pop).faultPc = s.faultPc := rfl
@[simp] theorem State.pop_faultInfo : (s.pop).faultInfo = s.faultInfo := rfl
@[simp] theorem State.pop_mem : (s.pop).mem = s.mem := rfl
@[simp] theorem State.pop_phase : (s.pop).phase = s.phase := rfl
@[simp] theorem State.pop_polls : (s.pop).polls = s.polls := rfl
@[simp] theorem State.pop_pollCount : (s.pop).pollCount = s.pollCount := rfl
@[simp] theorem State.pop_rnd : (s.pop).rnd = s.rnd := rfl
@[simp] theorem State.pop_drawCount : (s.pop).drawCount = s.drawCount := rfl
@[simp] theorem State.pop_shown : (s.pop).shown = s.shown := rfl
@[simp] theorem State.pop_renders : (s.pop).renders = s.renders := rfl

/-! ### `State.afterDraw` -/

@[simp] theorem State.afterDraw_cfg : (s.afterDraw).cfg = s.cfg := rfl
@[simp] theorem State.afterDraw_v : (s.afterDraw).v = s.v := rfl
@[simp] theorem State.afterDraw_i : (s.afterDraw).i = s.i := rfl
@[simp] theorem State.afterDraw_pc : (s.afterDraw).pc = s.pc := rfl
@[simp] theorem State.afterDraw_sp : (s.afterDraw).sp = s.sp := rfl
@[simp] theorem State.afterDraw_slots : (s.afterDraw).slots = s.slots := rfl
@[simp] theorem State.afterDraw_dt : (s.afterDraw).dt = s.dt := rfl
@[simp] theorem State.afterDraw_st : (s.afterDraw).st = s.st := rfl
@[simp] theorem State.afterDraw_keys : (s.afterDraw).keys = s.keys := rfl
@[simp] theorem State.afterDraw_display : (s.afterDraw).display = s.display := rfl
@[simp] theorem State.afterDraw_rs : (s.afterDraw).rs = s.rs := rfl
@[simp] theorem State.afterDraw_fault : (s.afterDraw).fault = s.fault := rfl
@[simp] theorem State.afterDraw_faultPc : (s.afterDraw).faultPc = s.faultPc := rfl
@[simp] theorem State.afterDraw_faultInfo : (s.afterDraw).faultInfo = s.faultInfo := rfl
@[simp] theorem State.afterDraw_mem : (s.afterDraw).mem = s.mem := rfl
@[simp] theorem State.afterDraw_phase : (s.afterDraw).phase = s.phase := rfl
@[simp] theorem State.afterDraw_polls : (s.afterDraw).polls = s.polls := rfl
@[simp] theorem State.afterDraw_pollCount : (s.afterDraw).pollCount = s.pollCount := rfl
@[simp] theorem State.afterDraw_rnd : (s.afterDraw).rnd = s.rnd.tail := rfl
@[simp] theorem State.afterDraw_drawCount : (s.afterDraw).drawCount = s.drawCount + 1 := rfl
@[simp] theorem State.afterDraw_shown : (s.afterDraw).shown = s.shown := rfl
@[simp] theorem State.afterDraw_renders : (s.afterDraw).renders = s.renders := rfl

/-! ### `State.enterFault` -/

@[simp] theorem State.enterFault_cfg (c : FaultCode) (a n : Word) : (s.enterFault c a n).cfg = s.cfg := rfl
@[simp] theorem State.enterFault_v (c : FaultCode) (a n : Word) : (s.enterFault c a n).v = s.v := rfl
@[simp] theorem State.enterFault_i (c : FaultCode) (a n : Word) : (s.enterFault c a n).i = s.i := rfl
@[simp] theorem State.enterFault_pc (c : FaultCode) (a n : Word) : (s.enterFault c a n).pc = s.pc := rfl
@[simp] theorem State.enterFault_sp (c : FaultCode) (a n : Word) : (s.enterFault c a n).sp = s.sp := rfl
@[simp] theorem State.enterFault_slots (c : FaultCode) (a n : Word) : (s.enterFault c a n).slots = s.slots := rfl
@[simp] theorem State.enterFault_dt (c : FaultCode) (a n : Word) : (s.enterFault c a n).dt = s.dt := rfl
@[simp] theorem State.enterFault_st (c : FaultCode) (a n : Word) : (s.enterFault c a n).st = s.st := rfl
@[simp] theorem State.enterFault_keys (c : FaultCode) (a n : Word) : (s.enterFault c a n).keys = s.keys := rfl
@[simp] theorem State.enterFault_display (c : FaultCode) (a n : Word) : (s.enterFault c a n).display = s.display := rfl
@[simp] theorem State.enterFault_rs (c : FaultCode) (a n : Word) : (s.enterFault c a n).rs = .faulted := rfl
@[simp] theorem State.enterFault_fault (c : FaultCode) (a n : Word) : (s.enterFault c a n).fault = c := rfl
@[simp] theorem State.enterFault_faultPc (c : FaultCode) (a n : Word) : (s.enterFault c a n).faultPc = a := rfl
@[simp] theorem State.enterFault_faultInfo (c : FaultCode) (a n : Word) : (s.enterFault c a n).faultInfo = n := rfl
@[simp] theorem State.enterFault_mem (c : FaultCode) (a n : Word) : (s.enterFault c a n).mem = s.mem := rfl
@[simp] theorem State.enterFault_phase (c : FaultCode) (a n : Word) : (s.enterFault c a n).phase = s.phase := rfl
@[simp] theorem State.enterFault_polls (c : FaultCode) (a n : Word) : (s.enterFault c a n).polls = s.polls := rfl
@[simp] theorem State.enterFault_pollCount (c : FaultCode) (a n : Word) : (s.enterFault c a n).pollCount = s.pollCount := rfl
@[simp] theorem State.enterFault_rnd (c : FaultCode) (a n : Word) : (s.enterFault c a n).rnd = s.rnd := rfl
@[simp] theorem State.enterFault_drawCount (c : FaultCode) (a n : Word) : (s.enterFault c a n).drawCount = s.drawCount := rfl
@[simp] theorem State.enterFault_shown (c : FaultCode) (a n : Word) : (s.enterFault c a n).shown = s.shown := rfl
@[simp] theorem State.enterFault_renders (c : FaultCode) (a n : Word) : (s.enterFault c a n).renders = s.renders := rfl

/-! ### `State.raise` -/

@[simp] theorem State.raise_cfg (c : FaultCode) (n : Word) : (s.raise c n).cfg = s.cfg := rfl
@[simp] theorem State.raise_v (c : FaultCode) (n : Word) : (s.raise c n).v = s.v := rfl
@[simp] theorem State.raise_i (c : FaultCode) (n : Word) : (s.raise c n).i = s.i := rfl
@[simp] theorem State.raise_pc (c : FaultCode) (n : Word) : (s.raise c n).pc = s.pc := rfl
@[simp] theorem State.raise_sp (c : FaultCode) (n : Word) : (s.raise c n).sp = s.sp := rfl
@[simp] theorem State.raise_slots (c : FaultCode) (n : Word) : (s.raise c n).slots = s.slots := rfl
@[simp] theorem State.raise_dt (c : FaultCode) (n : Word) : (s.raise c n).dt = s.dt := rfl
@[simp] theorem State.raise_st (c : FaultCode) (n : Word) : (s.raise c n).st = s.st := rfl
@[simp] theorem State.raise_keys (c : FaultCode) (n : Word) : (s.raise c n).keys = s.keys := rfl
@[simp] theorem State.raise_display (c : FaultCode) (n : Word) : (s.raise c n).display = s.display := rfl
@[simp] theorem State.raise_rs (c : FaultCode) (n : Word) : (s.raise c n).rs = .faulted := rfl
@[simp] theorem State.raise_fault (c : FaultCode) (n : Word) : (s.raise c n).fault = c := rfl
@[simp] theorem State.raise_faultPc (c : FaultCode) (n : Word) : (s.raise c n).faultPc = s.pc - 2 := rfl
@[simp] theorem State.raise_faultInfo (c : FaultCode) (n : Word) : (s.raise c n).faultInfo = n := rfl
@[simp] theorem State.raise_mem (c : FaultCode) (n : Word) : (s.raise c n).mem = s.mem := rfl
@[simp] theorem State.raise_phase (c : FaultCode) (n : Word) : (s.raise c n).phase = s.phase := rfl
@[simp] theorem State.raise_polls (c : FaultCode) (n : Word) : (s.raise c n).polls = s.polls := rfl
@[simp] theorem State.raise_pollCount (c : FaultCode) (n : Word) : (s.raise c n).pollCount = s.pollCount := rfl
@[simp] theorem State.raise_rnd (c : FaultCode) (n : Word) : (s.raise c n).rnd = s.rnd := rfl
@[simp] theorem State.raise_drawCount (c : FaultCode) (n : Word) : (s.raise c n).drawCount = s.drawCount := rfl
@[simp] theorem State.raise_shown (c : FaultCode) (n : Word) : (s.raise c n).shown = s.shown := rfl
@[simp] theorem State.raise_renders (c : FaultCode) (n : Word) : (s.raise c n).renders = s.renders := rfl

/-! ### `State.raiseMemory` -/

@[simp] theorem State.raiseMemory_cfg (a : Nat) : (s.raiseMemory a).cfg = s.cfg := rfl
@[simp] theorem State.raiseMemory_v (a : Nat) : (s.raiseMemory a).v = s.v := rfl
@[simp] theorem State.raiseMemory_i (a : Nat) : (s.raiseMemory a).i = s.i := rfl
@[simp] theorem State.raiseMemory_pc (a : Nat) : (s.raiseMemory a).pc = s.pc := rfl
@[simp] theorem State.raiseMemory_sp (a : Nat) : (s.raiseMemory a).sp = s.sp := rfl
@[simp] theorem State.raiseMemory_slots (a : Nat) : (s.raiseMemory a).slots = s.slots := rfl
@[simp] theorem State.raiseMemory_dt (a : Nat) : (s.raiseMemory a).dt = s.dt := rfl
@[simp] theorem State.raiseMemory_st (a : Nat) : (s.raiseMemory a).st = s.st := rfl
@[simp] theorem State.raiseMemory_keys (a : Nat) : (s.raiseMemory a).keys = s.keys := rfl
@[simp] theorem State.raiseMemory_display (a : Nat) : (s.raiseMemory a).display = s.display := rfl
@[simp] theorem State.raiseMemory_rs (a : Nat) : (s.raiseMemory a).rs = .faulted := rfl
@[simp] theorem State.raiseMemory_fault (a : Nat) : (s.raiseMemory a).fault = .memoryFault := rfl
@[simp] theorem State.raiseMemory_faultPc (a : Nat) : (s.raiseMemory a).faultPc = s.pc - 2 := rfl
@[simp] theorem State.raiseMemory_faultInfo (a : Nat) : (s.raiseMemory a).faultInfo = BitVec.ofNat 16 a := rfl
@[simp] theorem State.raiseMemory_mem (a : Nat) : (s.raiseMemory a).mem = s.mem := rfl
@[simp] theorem State.raiseMemory_phase (a : Nat) : (s.raiseMemory a).phase = s.phase := rfl
@[simp] theorem State.raiseMemory_polls (a : Nat) : (s.raiseMemory a).polls = s.polls := rfl
@[simp] theorem State.raiseMemory_pollCount (a : Nat) : (s.raiseMemory a).pollCount = s.pollCount := rfl
@[simp] theorem State.raiseMemory_rnd (a : Nat) : (s.raiseMemory a).rnd = s.rnd := rfl
@[simp] theorem State.raiseMemory_drawCount (a : Nat) : (s.raiseMemory a).drawCount = s.drawCount := rfl
@[simp] theorem State.raiseMemory_shown (a : Nat) : (s.raiseMemory a).shown = s.shown := rfl
@[simp] theorem State.raiseMemory_renders (a : Nat) : (s.raiseMemory a).renders = s.renders := rfl

/-! ### `State.afterFetch` -/

@[simp] theorem State.afterFetch_cfg (left : Nat) : (s.afterFetch left).cfg = s.cfg := rfl
@[simp] theorem State.afterFetch_v (left : Nat) : (s.afterFetch left).v = s.v := rfl
@[simp] theorem State.afterFetch_i (left : Nat) : (s.afterFetch left).i = s.i := rfl
@[simp] theorem State.afterFetch_pc (left : Nat) : (s.afterFetch left).pc = s.pc + 2 := rfl
@[simp] theorem State.afterFetch_sp (left : Nat) : (s.afterFetch left).sp = s.sp := rfl
@[simp] theorem State.afterFetch_slots (left : Nat) : (s.afterFetch left).slots = s.slots := rfl
@[simp] theorem State.afterFetch_dt (left : Nat) : (s.afterFetch left).dt = s.dt := rfl
@[simp] theorem State.afterFetch_st (left : Nat) : (s.afterFetch left).st = s.st := rfl
@[simp] theorem State.afterFetch_keys (left : Nat) : (s.afterFetch left).keys = s.keys := rfl
@[simp] theorem State.afterFetch_display (left : Nat) : (s.afterFetch left).display = s.display := rfl
@[simp] theorem State.afterFetch_rs (left : Nat) : (s.afterFetch left).rs = s.rs := rfl
@[simp] theorem State.afterFetch_fault (left : Nat) : (s.afterFetch left).fault = s.fault := rfl
@[simp] theorem State.afterFetch_faultPc (left : Nat) : (s.afterFetch left).faultPc = s.faultPc := rfl
@[simp] theorem State.afterFetch_faultInfo (left : Nat) : (s.afterFetch left).faultInfo = s.faultInfo := rfl
@[simp] theorem State.afterFetch_mem (left : Nat) : (s.afterFetch left).mem = s.mem := rfl
@[simp] theorem State.afterFetch_phase (left : Nat) : (s.afterFetch left).phase = .batch left := rfl
@[simp] theorem State.afterFetch_polls (left : Nat) : (s.afterFetch left).polls = s.polls := rfl
@[simp] theorem State.afterFetch_pollCount (left : Nat) : (s.afterFetch left).pollCount = s.pollCount := rfl
@[simp] theorem State.afterFetch_rnd (left : Nat) : (s.afterFetch left).rnd = s.rnd := rfl
@[simp] theorem State.afterFetch_drawCount (left : Nat) : (s.afterFetch left).drawCount = s.drawCount := rfl
@[simp] theorem State.afterFetch_shown (left : Nat) : (s.afterFetch left).shown = s.shown := rfl
@[simp] theorem State.afterFetch_renders (left : Nat) : (s.afterFetch left).renders = s.renders := rfl

/-! ### `State.polled` -/

@[simp] theorem State.polled_cfg (p : Poll) : (s.polled p).cfg = s.cfg := rfl
@[simp] theorem State.polled_v (p : Poll) : (s.polled p).v = s.v := rfl
@[simp] theorem State.polled_i (p : Poll) : (s.polled p).i = s.i := rfl
@[simp] theorem State.polled_pc (p : Poll) : (s.polled p).pc = s.pc := rfl
@[simp] theorem State.polled_sp (p : Poll) : (s.polled p).sp = s.sp := rfl
@[simp] theorem State.polled_slots (p : Poll) : (s.polled p).slots = s.slots := rfl
@[simp] theorem State.polled_dt (p : Poll) : (s.polled p).dt = s.dt := rfl
@[simp] theorem State.polled_st (p : Poll) : (s.polled p).st = s.st := rfl
@[simp] theorem State.polled_keys (p : Poll) : (s.polled p).keys = p.keys := rfl
@[simp] theorem State.polled_display (p : Poll) : (s.polled p).display = s.display := rfl
@[simp] theorem State.polled_rs (p : Poll) : (s.polled p).rs = s.rs.afterPoll p := rfl
@[simp] theorem State.polled_fault (p : Poll) : (s.polled p).fault = s.fault := rfl
@[simp] theorem State.polled_faultPc (p : Poll) : (s.polled p).faultPc = s.faultPc := rfl
@[simp] theorem State.polled_faultInfo (p : Poll) : (s.polled p).faultInfo = s.faultInfo := rfl
@[simp] theorem State.polled_mem (p : Poll) : (s.polled p).mem = s.mem := rfl
@[simp] theorem State.polled_phase (p : Poll) : (s.polled p).phase = s.phase := rfl
@[simp] theorem State.polled_polls (p : Poll) : (s.polled p).polls = s.polls.tail := rfl
@[simp] theorem State.polled_pollCount (p : Poll) : (s.polled p).pollCount = s.pollCount + 1 := rfl
@[simp] theorem State.polled_rnd (p : Poll) : (s.polled p).rnd = s.rnd := rfl
@[simp] theorem State.polled_drawCount (p : Poll) : (s.polled p).drawCount = s.drawCount := rfl
@[simp] theorem State.polled_shown (p : Poll) : (s.polled p).shown = s.shown := rfl
@[simp] theorem State.polled_renders (p : Poll) : (s.polled p).renders = s.renders := rfl

/-! ### `State.tick` -/

@[simp] theorem State.tick_cfg : (s.tick).cfg = s.cfg := rfl
@[simp] theorem State.tick_v : (s.tick).v = s.v := rfl
@[simp] theorem State.tick_i : (s.tick).i = s.i := rfl
@[simp] theorem State.tick_pc : (s.tick).pc = s.pc := rfl
@[simp] theorem State.tick_sp : (s.tick).sp = s.sp := rfl
@[simp] theorem State.tick_slots : (s.tick).slots = s.slots := rfl
@[simp] theorem State.tick_dt : (s.tick).dt = tickTimer s.dt := rfl
@[simp] theorem State.tick_st : (s.tick).st = tickTimer s.st := rfl
@[simp] theorem State.tick_keys : (s.tick).keys = s.keys := rfl
@[simp] theorem State.tick_display : (s.tick).display = s.display := rfl
@[simp] theorem State.tick_rs : (s.tick).rs = s.rs := rfl
@[simp] theorem State.tick_fault : (s.tick).fault = s.fault := rfl
@[simp] theorem State.tick_faultPc : (s.tick).faultPc = s.faultPc := rfl
@[simp] theorem State.tick_faultInfo : (s.tick).faultInfo = s.faultInfo := rfl
@[simp] theorem State.tick_mem : (s.tick).mem = s.mem := rfl
@[simp] theorem State.tick_phase : (s.tick).phase = s.phase := rfl
@[simp] theorem State.tick_polls : (s.tick).polls = s.polls := rfl
@[simp] theorem State.tick_pollCount : (s.tick).pollCount = s.pollCount := rfl
@[simp] theorem State.tick_rnd : (s.tick).rnd = s.rnd := rfl
@[simp] theorem State.tick_drawCount : (s.tick).drawCount = s.drawCount := rfl
@[simp] theorem State.tick_shown : (s.tick).shown = s.shown := rfl
@[simp] theorem State.tick_renders : (s.tick).renders = s.renders := rfl

/-! ### `State.render` -/

@[simp] theorem State.render_cfg : (s.render).cfg = s.cfg := rfl
@[simp] theorem State.render_v : (s.render).v = s.v := rfl
@[simp] theorem State.render_i : (s.render).i = s.i := rfl
@[simp] theorem State.render_pc : (s.render).pc = s.pc := rfl
@[simp] theorem State.render_sp : (s.render).sp = s.sp := rfl
@[simp] theorem State.render_slots : (s.render).slots = s.slots := rfl
@[simp] theorem State.render_dt : (s.render).dt = s.dt := rfl
@[simp] theorem State.render_st : (s.render).st = s.st := rfl
@[simp] theorem State.render_keys : (s.render).keys = s.keys := rfl
@[simp] theorem State.render_display : (s.render).display = s.display := rfl
@[simp] theorem State.render_rs : (s.render).rs = s.rs := rfl
@[simp] theorem State.render_fault : (s.render).fault = s.fault := rfl
@[simp] theorem State.render_faultPc : (s.render).faultPc = s.faultPc := rfl
@[simp] theorem State.render_faultInfo : (s.render).faultInfo = s.faultInfo := rfl
@[simp] theorem State.render_mem : (s.render).mem = s.mem := rfl
@[simp] theorem State.render_phase : (s.render).phase = s.phase := rfl
@[simp] theorem State.render_polls : (s.render).polls = s.polls := rfl
@[simp] theorem State.render_pollCount : (s.render).pollCount = s.pollCount := rfl
@[simp] theorem State.render_rnd : (s.render).rnd = s.rnd := rfl
@[simp] theorem State.render_drawCount : (s.render).drawCount = s.drawCount := rfl
@[simp] theorem State.render_shown : (s.render).shown = some s.display := rfl
@[simp] theorem State.render_renders : (s.render).renders = s.renders + 1 := rfl

/-! ### `State.skipIf` -/

@[simp] theorem State.skipIf_cfg (c : Bool) : (s.skipIf c).cfg = s.cfg := by cases c <;> rfl
@[simp] theorem State.skipIf_v (c : Bool) : (s.skipIf c).v = s.v := by cases c <;> rfl
@[simp] theorem State.skipIf_i (c : Bool) : (s.skipIf c).i = s.i := by cases c <;> rfl
@[simp] theorem State.skipIf_pc (c : Bool) : (s.skipIf c).pc = if c then s.pc + 2 else s.pc := by cases c <;> rfl
@[simp] theorem State.skipIf_sp (c : Bool) : (s.skipIf c).sp = s.sp := by cases c <;> rfl
@[simp] theorem State.skipIf_slots (c : Bool) : (s.skipIf c).slots = s.slots := by cases c <;> rfl
@[simp] theorem State.skipIf_dt (c : Bool) : (s.skipIf c).dt = s.dt := by cases c <;> rfl
@[simp] theorem State.skipIf_st (c : Bool) : (s.skipIf c).st = s.st := by cases c <;> rfl
@[simp] theorem State.skipIf_keys (c : Bool) : (s.skipIf c).keys = s.keys := by cases c <;> rfl
@[simp] theorem State.skipIf_display (c : Bool) : (s.skipIf c).display = s.display := by cases c <;> rfl
@[simp] theorem State.skipIf_rs (c : Bool) : (s.skipIf c).rs = s.rs := by cases c <;> rfl
@[simp] theorem State.skipIf_fault (c : Bool) : (s.skipIf c).fault = s.fault := by cases c <;> rfl
@[simp] theorem State.skipIf_faultPc (c : Bool) : (s.skipIf c).faultPc = s.faultPc := by cases c <;> rfl
@[simp] theorem State.skipIf_faultInfo (c : Bool) : (s.skipIf c).faultInfo = s.faultInfo := by cases c <;> rfl
@[simp] theorem State.skipIf_mem (c : Bool) : (s.skipIf c).mem = s.mem := by cases c <;> rfl
@[simp] theorem State.skipIf_phase (c : Bool) : (s.skipIf c).phase = s.phase := by cases c <;> rfl
@[simp] theorem State.skipIf_polls (c : Bool) : (s.skipIf c).polls = s.polls := by cases c <;> rfl
@[simp] theorem State.skipIf_pollCount (c : Bool) : (s.skipIf c).pollCount = s.pollCount := by cases c <;> rfl
@[simp] theorem State.skipIf_rnd (c : Bool) : (s.skipIf c).rnd = s.rnd := by cases c <;> rfl
@[simp] theorem State.skipIf_drawCount (c : Bool) : (s.skipIf c).drawCount = s.drawCount := by cases c <;> rfl
@[simp] theorem State.skipIf_shown (c : Bool) : (s.skipIf c).shown = s.shown := by cases c <;> rfl
@[simp] theorem State.skipIf_renders (c : Bool) : (s.skipIf c).renders = s.renders := by cases c <;> rfl

/-! ### `State.storeBytes` -/

@[simp] theorem State.storeBytes_cfg (a : Nat) (bs : List Byte) : (s.storeBytes a bs).cfg = s.cfg := by
  induction bs generalizing s a <;> simp [State.storeBytes, *]
@[simp] theorem State.storeBytes_v (a : Nat) (bs : List Byte) : (s.storeBytes a bs).v = s.v := by
  induction bs generalizing s a <;> simp [State.storeBytes, *]
@[simp] theorem State.storeBytes_i (a : Nat) (bs : List Byte) : (s.storeBytes a bs).i = s.i := by
  induction bs generalizing s a <;> simp [State.storeBytes, *]
@[simp] theorem State.storeBytes_pc (a : Nat) (bs : List Byte) : (s.storeBytes a bs).pc = s.pc := by
  induction bs generalizing s a <;> simp [State.storeBytes, *]
@[simp] theorem State.storeBytes_sp (a : Nat) (bs : List Byte) : (s.storeBytes a bs).sp = s.sp := by
  induction bs generalizing s a <;> simp [State.storeBytes, *]
@[simp] theorem State.storeBytes_slots (a : Nat) (bs : List Byte) : (s.storeBytes a bs).slots = s.slots := by
  induction bs generalizing s a <;> simp [State.storeBytes, *]
@[simp] theorem State.storeBytes_dt (a : Nat) (bs : List Byte) : (s.storeBytes a bs).dt = s.dt := by
  induction bs generalizing s a <;> simp [State.storeBytes, *]
@[simp] theorem State.storeBytes_st (a : Nat) (bs : List Byte) : (s.storeBytes a bs).st = s.st := by
  induction bs generalizing s a <;> simp [State.storeBytes, *]
@[simp] theorem State.storeBytes_keys (a : Nat) (bs : List Byte) : (s.storeBytes a bs).keys = s.keys := by
  induction bs generalizing s a <;> simp [State.storeBytes, *]
@[simp] theorem State.storeBytes_display (a : Nat) (bs : List Byte) : (s.storeBytes a bs).display = s.display := by
  induction bs generalizing s a <;> simp [State.storeBytes, *]
@[simp] theorem State.storeBytes_rs (a : Nat) (bs : List Byte) : (s.storeBytes a bs).rs = s.rs := by
  induction bs generalizing s a <;> simp [State.storeBytes, *]
@[simp] theorem State.storeBytes_fault (a : Nat) (bs : List Byte) : (s.storeBytes a bs).fault = s.fault := by
  induction bs generalizing s a <;> simp [State.storeBytes, *]
@[simp] theorem State.storeBytes_faultPc (a : Nat) (bs : List Byte) : (s.storeBytes a bs).faultPc = s.faultPc := by
  induction bs generalizing s a <;> simp [State.storeBytes, *]
@[simp] theorem State.storeBytes_faultInfo (a : Nat) (bs : List Byte) : (s.storeBytes a bs).faultInfo = s.faultInfo := by
  induction bs generalizing s a <;> simp [State.storeBytes, *]
@[simp] theorem State.storeBytes_phase (a : Nat) (bs : List Byte) : (s.storeBytes a bs).phase = s.phase := by
  induction bs generalizing s a <;> simp [State.storeBytes, *]
@[simp] theorem State.storeBytes_polls (a : Nat) (bs : List Byte) : (s.storeBytes a bs).polls = s.polls := by
  induction bs generalizing s a <;> simp [State.storeBytes, *]
@[simp] theorem State.storeBytes_pollCount (a : Nat) (bs : List Byte) : (s.storeBytes a bs).pollCount = s.pollCount := by
  induction bs generalizing s a <;> simp [State.storeBytes, *]
@[simp] theorem State.storeBytes_rnd (a : Nat) (bs : List Byte) : (s.storeBytes a bs).rnd = s.rnd := by
  induction bs generalizing s a <;> simp [State.storeBytes, *]
@[simp] theorem State.storeBytes_drawCount (a : Nat) (bs : List Byte) : (s.storeBytes a bs).drawCount = s.drawCount := by
  induction bs generalizing s a <;> simp [State.storeBytes, *]
@[simp] theorem State.storeBytes_shown (a : Nat) (bs : List Byte) : (s.storeBytes a bs).shown = s.shown := by
  induction bs generalizing s a <;> simp [State.storeBytes, *]
@[simp] theorem State.storeBytes_renders (a : Nat) (bs : List Byte) : (s.storeBytes a bs).renders = s.renders := by
  induction bs generalizing s a <;> simp [State.storeBytes, *]

/-! ### `State.setRegThenFlag` and `State.setLogic` -/

@[simp] theorem State.setRegThenFlag_cfg (x : Reg) (b : Byte) (c : Bool) : (s.setRegThenFlag x b c).cfg = s.cfg := rfl
@[simp] theorem State.setRegThenFlag_i (x : Reg) (b : Byte) (c : Bool) : (s.setRegThenFlag x b c).i = s.i := rfl
@[simp] theorem State.setRegThenFlag_pc (x : Reg) (b : Byte) (c : Bool) : (s.setRegThenFlag x b c).pc = s.pc := rfl
@[simp] theorem State.setRegThenFlag_sp (x : Reg) (b : Byte) (c : Bool) : (s.setRegThenFlag x b c).sp = s.sp := rfl
@[simp] theorem State.setRegThenFlag_slots (x : Reg) (b : Byte) (c : Bool) : (s.setRegThenFlag x b c).slots = s.slots := rfl
@[simp] theorem State.setRegThenFlag_dt (x : Reg) (b : Byte) (c : Bool) : (s.setRegThenFlag x b c).dt = s.dt := rfl
@[simp] theorem State.setRegThenFlag_st (x : Reg) (b : Byte) (c : Bool) : (s.setRegThenFlag x b c).st = s.st := rfl
@[simp] theorem State.setRegThenFlag_keys (x : Reg) (b : Byte) (c : Bool) : (s.setRegThenFlag x b c).keys = s.keys := rfl
@[simp] theorem State.setRegThenFlag_display (x : Reg) (b : Byte) (c : Bool) : (s.setRegThenFlag x b c).display = s.display := rfl
@[simp] theorem State.setRegThenFlag_rs (x : Reg) (b : Byte) (c : Bool) : (s.setRegThenFlag x b c).rs = s.rs := rfl
@[simp] theorem State.setRegThenFlag_fault (x : Reg) (b : Byte) (c : Bool) : (s.setRegThenFlag x b c).fault = s.fault := rfl
@[simp] theorem State.setRegThenFlag_faultPc (x : Reg) (b : Byte) (c : Bool) : (s.setRegThenFlag x b c).faultPc = s.faultPc := rfl
@[simp] theorem State.setRegThenFlag_faultInfo (x : Reg) (b : Byte) (c : Bool) : (s.setRegThenFlag x b c).faultInfo = s.faultInfo := rfl
@[simp] theorem State.setRegThenFlag_mem (x : Reg) (b : Byte) (c : Bool) : (s.setRegThenFlag x b c).mem = s.mem := rfl
@[simp] theorem State.setRegThenFlag_phase (x : Reg) (b : Byte) (c : Bool) : (s.setRegThenFlag x b c).phase = s.phase := rfl
@[simp] theorem State.setRegThenFlag_polls (x : Reg) (b : Byte) (c : Bool) : (s.setRegThenFlag x b c).polls = s.polls := rfl
@[simp] theorem State.setRegThenFlag_pollCount (x : Reg) (b : Byte) (c : Bool) : (s.setRegThenFlag x b c).pollCount = s.pollCount := rfl
@[simp] theorem State.setRegThenFlag_rnd (x : Reg) (b : Byte) (c : Bool) : (s.setRegThenFlag x b c).rnd = s.rnd := rfl
@[simp] theorem State.setRegThenFlag_drawCount (x : Reg) (b : Byte) (c : Bool) : (s.setRegThenFlag x b c).drawCount = s.drawCount := rfl
@[simp] theorem State.setRegThenFlag_shown (x : Reg) (b : Byte) (c : Bool) : (s.setRegThenFlag x b c).shown = s.shown := rfl
@[simp] theorem State.setRegThenFlag_renders (x : Reg) (b : Byte) (c : Bool) : (s.setRegThenFlag x b c).renders = s.renders := rfl
@[simp] theorem State.setLogic_cfg (x : Reg) (b : Byte) : (s.setLogic x b).cfg = s.cfg := by
  unfold State.setLogic; split <;> rfl
@[simp] theorem State.setLogic_i (x : Reg) (b : Byte) : (s.setLogic x b).i = s.i := by
  unfold State.setLogic; split <;> rfl
@[simp] theorem State.setLogic_pc (x : Reg) (b : Byte) : (s.setLogic x b).pc = s.pc := by
  unfold State.setLogic; split <;> rfl
@[simp] theorem State.setLogic_sp (x : Reg) (b : Byte) : (s.setLogic x b).sp = s.sp := by
  unfold State.setLogic; split <;> rfl
@[simp] theorem State.setLogic_slots (x : Reg) (b : Byte) : (s.setLogic x b).slots = s.slots := by
  unfold State.setLogic; split <;> rfl
@[simp] theorem State.setLogic_dt (x : Reg) (b : Byte) : (s.setLogic x b).dt = s.dt := by
  unfold State.setLogic; split <;> rfl
@[simp] theorem State.setLogic_st (x : Reg) (b : Byte) : (s.setLogic x b).st = s.st := by
  unfold State.setLogic; split <;> rfl
@[simp] theorem State.setLogic_keys (x : Reg) (b : Byte) : (s.setLogic x b).keys = s.keys := by
  unfold State.setLogic; split <;> rfl
@[simp] theorem State.setLogic_display (x : Reg) (b : Byte) : (s.setLogic x b).display = s.display := by
  unfold State.setLogic; split <;> rfl
@[simp] theorem State.setLogic_rs (x : Reg) (b : Byte) : (s.setLogic x b).rs = s.rs := by
  unfold State.setLogic; split <;> rfl
@[simp] theorem State.setLogic_fault (x : Reg) (b : Byte) : (s.setLogic x b).fault = s.fault := by
  unfold State.setLogic; split <;> rfl
@[simp] theorem State.setLogic_faultPc (x : Reg) (b : Byte) : (s.setLogic x b).faultPc = s.faultPc := by
  unfold State.setLogic; split <;> rfl
@[simp] theorem State.setLogic_faultInfo (x : Reg) (b : Byte) : (s.setLogic x b).faultInfo = s.faultInfo := by
  unfold State.setLogic; split <;> rfl
@[simp] theorem State.setLogic_mem (x : Reg) (b : Byte) : (s.setLogic x b).mem = s.mem := by
  unfold State.setLogic; split <;> rfl
@[simp] theorem State.setLogic_phase (x : Reg) (b : Byte) : (s.setLogic x b).phase = s.phase := by
  unfold State.setLogic; split <;> rfl
@[simp] theorem State.setLogic_polls (x : Reg) (b : Byte) : (s.setLogic x b).polls = s.polls := by
  unfold State.setLogic; split <;> rfl
@[simp] theorem State.setLogic_pollCount (x : Reg) (b : Byte) : (s.setLogic x b).pollCount = s.pollCount := by
  unfold State.setLogic; split <;> rfl
@[simp] theorem State.setLogic_rnd (x : Reg) (b : Byte) : (s.setLogic x b).rnd = s.rnd := by
  unfold State.setLogic; split <;> rfl
@[simp] theorem State.setLogic_drawCount (x : Reg) (b : Byte) : (s.setLogic x b).drawCount = s.drawCount := by
  unfold State.setLogic; split <;> rfl
@[simp] theorem State.setLogic_shown (x : Reg) (b : Byte) : (s.setLogic x b).shown = s.shown := by
  unfold State.setLogic; split <;> rfl
@[simp] theorem State.setLogic_renders (x : Reg) (b : Byte) : (s.setLogic x b).renders = s.renders := by
  unfold State.setLogic; split <;> rfl

/-! ### A register and a byte of memory after each update -/

@[simp] theorem State.setReg_readByte (x : Reg) (b : Byte) (k : Nat) : (s.setReg x b).readByte k = s.readByte k := rfl
@[simp] theorem State.setRegs_readByte (vs : Vector Byte 16) (k : Nat) : (s.setRegs vs).readByte k = s.readByte k := rfl
@[simp] theorem State.setPc_reg (w : Word) (r : Reg) : (s.setPc w).reg r = s.reg r := rfl
@[simp] theorem State.setPc_readByte (w : Word) (k : Nat) : (s.setPc w).readByte k = s.readByte k := rfl
@[simp] theorem State.setI_reg (w : Word) (r : Reg) : (s.setI w).reg r = s.reg r := rfl
@[simp] theorem State.setI_readByte (w : Word) (k : Nat) : (s.setI w).readByte k = s.readByte k := rfl
@[simp] theorem State.setDt_reg (b : Byte) (r : Reg) : (s.setDt b).reg r = s.reg r := rfl
@[simp] theorem State.setDt_readByte (b : Byte) (k : Nat) : (s.setDt b).readByte k = s.readByte k := rfl
@[simp] theorem State.setSt_reg (b : Byte) (r : Reg) : (s.setSt b).reg r = s.reg r := rfl
@[simp] theorem State.setSt_readByte (b : Byte) (k : Nat) : (s.setSt b).readByte k = s.readByte k := rfl
@[simp] theorem State.setDisplay_reg (d : Display) (r : Reg) : (s.setDisplay d).reg r = s.reg r := rfl
@[simp] theorem State.setDisplay_readByte (d : Display) (k : Nat) : (s.setDisplay d).readByte k = s.readByte k := rfl
@[simp] theorem State.writeByte_reg (a : Nat) (b : Byte) (r : Reg) : (s.writeByte a b).reg r = s.reg r := rfl
@[simp] theorem State.push_reg (w : Word) (r : Reg) : (s.push w).reg r = s.reg r := rfl
@[simp] theorem State.push_readByte (w : Word) (k : Nat) : (s.push w).readByte k = s.readByte k := rfl
@[simp] theorem State.pop_reg (r : Reg) : (s.pop).reg r = s.reg r := rfl
@[simp] theorem State.pop_readByte (k : Nat) : (s.pop).readByte k = s.readByte k := rfl
@[simp] theorem State.afterDraw_reg (r : Reg) : (s.afterDraw).reg r = s.reg r := rfl
@[simp] theorem State.afterDraw_readByte (k : Nat) : (s.afterDraw).readByte k = s.readByte k := rfl
@[simp] theorem State.enterFault_reg (c : FaultCode) (a n : Word) (r : Reg) : (s.enterFault c a n).reg r = s.reg r := rfl
@[simp] theorem State.enterFault_readByte (c : FaultCode) (a n : Word) (k : Nat) : (s.enterFault c a n).readByte k = s.readByte k := rfl
@[simp] theorem State.raise_reg (c : FaultCode) (n : Word) (r : Reg) : (s.raise c n).reg r = s.reg r := rfl
@[simp] theorem State.raise_readByte (c : FaultCode) (n : Word) (k : Nat) : (s.raise c n).readByte k = s.readByte k := rfl
@[simp] theorem State.raiseMemory_reg (a : Nat) (r : Reg) : (s.raiseMemory a).reg r = s.reg r := rfl
@[simp] theorem State.raiseMemory_readByte (a : Nat) (k : Nat) : (s.raiseMemory a).readByte k = s.readByte k := rfl
@[simp] theorem State.afterFetch_reg (left : Nat) (r : Reg) : (s.afterFetch left).reg r = s.reg r := rfl
@[simp] theorem State.afterFetch_readByte (left : Nat) (k : Nat) : (s.afterFetch left).readByte k = s.readByte k := rfl
@[simp] theorem State.polled_reg (p : Poll) (r : Reg) : (s.polled p).reg r = s.reg r := rfl
@[simp] theorem State.polled_readByte (p : Poll) (k : Nat) : (s.polled p).readByte k = s.readByte k := rfl
@[simp] theorem State.tick_reg (r : Reg) : (s.tick).reg r = s.reg r := rfl
@[simp] theorem State.tick_readByte (k : Nat) : (s.tick).readByte k = s.readByte k := rfl
@[simp] theorem State.render_reg (r : Reg) : (s.render).reg r = s.reg r := rfl
@[simp] theorem State.render_readByte (k : Nat) : (s.render).readByte k = s.readByte k := rfl
@[simp] theorem State.skipIf_reg (c : Bool) (r : Reg) : (s.skipIf c).reg r = s.reg r := by cases c <;> rfl
@[simp] theorem State.skipIf_readByte (c : Bool) (k : Nat) : (s.skipIf c).readByte k = s.readByte k := by cases c <;> rfl
@[simp] theorem State.storeBytes_reg (a : Nat) (bs : List Byte) (r : Reg) : (s.storeBytes a bs).reg r = s.reg r := by
  simp [State.reg]
@[simp] theorem State.setRegThenFlag_readByte (x : Reg) (b : Byte) (c : Bool) (k : Nat) :
    (s.setRegThenFlag x b c).readByte k = s.readByte k := rfl
@[simp] theorem State.setLogic_readByte (x : Reg) (b : Byte) (k : Nat) : (s.setLogic x b).readByte k = s.readByte k := by
  simp [State.readByte]

/-- A written register holds the value written and every other register its old one. -/
@[simp] theorem State.setReg_reg (x : Reg) (b : Byte) (r : Reg) :
    (s.setReg x b).reg r = if x = r then b else s.reg r := by
  simp only [State.reg, State.setReg_v, Fin.getElem_fin, Vector.getElem_set, Fin.ext_iff]

/-- VF holds the flag; the destination, unless it is VF, the result; every other register its old value. -/
theorem State.setRegThenFlag_reg (x : Reg) (b : Byte) (c : Bool) (r : Reg) :
    (s.setRegThenFlag x b c).reg r = if r = VF then flagByte c else if x = r then b else s.reg r := by
  simp only [State.setRegThenFlag, State.setReg_reg, eq_comm]

/-- The destination holds the result, unless the quirk then clears VF. -/
theorem State.setLogic_reg (x : Reg) (b : Byte) (r : Reg) :
    (s.setLogic x b).reg r =
      if s.cfg.quirkLogicVfReset = true ∧ r = VF then 0 else if x = r then b else s.reg r := by
  unfold State.setLogic
  split
  next h => simp only [State.setReg_reg, h, true_and, eq_comm]
  next h => simp [State.setReg_reg, h]

end Sys2Proof.Machine
end

