-- ==== Sys2Proof/Laws/Memory.lean ====
section
/-! SUPPORT. Memory: a read after a write, and every operation keeps the canonical form. -/

namespace Sys2Proof.Machine

/-! ### The list of cells -/

section
variable (d : Nat → Byte)

theorem Memory.read_erase (m : List Host.Cell) (a a' : Nat) :
    Memory.read d (Memory.erase m a) a' = if a = a' then d a' else Memory.read d m a' := by
  induction m with
  | nil => simp [Memory.erase, Memory.read]
  | cons c m ih =>
    obtain ⟨k, b⟩ := c
    by_cases hk : k = a
    · subst hk
      have : Memory.erase ((k, b) :: m) k = Memory.erase m k := by simp [Memory.erase]
      rw [this, ih]
      by_cases h : k = a' <;> simp [Memory.read, h]
    · have : Memory.erase ((k, b) :: m) a = (k, b) :: Memory.erase m a := by simp [Memory.erase, hk]
      rw [this]
      simp only [Memory.read, ih]
      by_cases h : k = a'
      · have : ¬ a = a' := by omega
        simp [h, this]
      · simp [h]

theorem Memory.read_insert (m : List Host.Cell) (a : Nat) (b : Byte) (a' : Nat) :
    Memory.read d (Memory.insert m a b) a' = if a = a' then b else Memory.read d m a' := by
  induction m with
  | nil => simp [Memory.insert, Memory.read]
  | cons c m ih =>
    obtain ⟨k, c⟩ := c
    simp only [Memory.insert]
    split
    · simp [Memory.read]
    · split
      next hka =>
        subst hka
        by_cases h : k = a' <;> simp [Memory.read, h]
      next hka =>
        simp only [Memory.read, ih]
        by_cases h : k = a'
        · have : ¬ a = a' := by omega
          simp [h, this]
        · simp [h]

/-- A read after a write gives the value written at that address and the old one at every other. -/
@[simp] theorem Memory.read_write (m : List Host.Cell) (a : Nat) (b : Byte) (a' : Nat) :
    Memory.read d (Memory.write d m a b) a' = if a = a' then b else Memory.read d m a' := by
  unfold Memory.write
  split
  · rw [Memory.read_erase]
    by_cases h : a = a'
    · subst h; simp_all
    · simp [h]
  · exact Memory.read_insert d m a b a'

theorem Memory.mem_insert {m : List Host.Cell} {a : Nat} {b : Byte} {c : Host.Cell}
    (h : c ∈ Memory.insert m a b) : c = (a, b) ∨ c ∈ m := by
  induction m with
  | nil => simpa [Memory.insert] using h
  | cons e m ih =>
    obtain ⟨k, e⟩ := e
    simp only [Memory.insert] at h
    split at h
    · simpa using h
    · split at h
      · rcases List.mem_cons.1 h with h | h
        · exact .inl h
        · exact .inr (List.mem_cons_of_mem _ h)
      · rcases List.mem_cons.1 h with h | h
        · exact .inr (h ▸ List.mem_cons_self)
        · exact (ih h).imp id (List.mem_cons_of_mem _)

theorem Memory.insert_rising {m : List Host.Cell} (a : Nat) (b : Byte)
    (h : m.Pairwise (fun c c' => c.1 < c'.1)) :
    (Memory.insert m a b).Pairwise (fun c c' => c.1 < c'.1) := by
  induction m with
  | nil => simp [Memory.insert]
  | cons e m ih =>
    obtain ⟨k, e⟩ := e
    obtain ⟨hk, hm⟩ := List.pairwise_cons.1 h
    simp only [Memory.insert]
    split
    next hlt =>
      refine List.pairwise_cons.2 ⟨fun c hc => ?_, h⟩
      rcases List.mem_cons.1 hc with rfl | hc
      · exact hlt
      · exact Nat.lt_trans hlt (hk c hc)
    next hnlt =>
      split
      next heq => exact List.pairwise_cons.2 ⟨fun c hc => heq ▸ hk c hc, hm⟩
      next hne =>
        refine List.pairwise_cons.2 ⟨fun c hc => ?_, ih hm⟩
        rcases Memory.mem_insert hc with rfl | hc
        · show k < a
          omega
        · exact hk c hc

theorem Memory.mem_write {m : List Host.Cell} {a : Nat} {b : Byte} {c : Host.Cell}
    (h : c ∈ Memory.write d m a b) : (c = (a, b) ∧ b ≠ d a) ∨ c ∈ m := by
  unfold Memory.write at h
  split at h
  · exact .inr (List.mem_filter.1 h).1
  · exact (Memory.mem_insert h).imp (⟨·, ‹_›⟩) id

theorem Memory.wf_iff (m : List Host.Cell) : Memory.wf d m = true ↔
    m.Pairwise (fun c c' => c.1 < c'.1) ∧ ∀ c ∈ m, c.1 < memSize ∧ c.2 ≠ d c.1 := by
  simp [Memory.wf]

@[simp] theorem Memory.wf_nil : Memory.wf d [] = true := by simp [Memory.wf]

/-- A write inside Memory keeps the canonical form. -/
theorem Memory.wf_write {m : List Host.Cell} (h : Memory.wf d m = true) {a : Nat} (ha : a < memSize) (b : Byte) :
    Memory.wf d (Memory.write d m a b) = true := by
  rw [Memory.wf_iff] at h ⊢
  obtain ⟨hp, hc⟩ := h
  refine ⟨?_, fun c hm => ?_⟩
  · unfold Memory.write
    split
    · exact hp.filter _
    · exact Memory.insert_rising a b hp
  · rcases Memory.mem_write d hm with ⟨rfl, hb⟩ | hm
    · exact ⟨ha, hb⟩
    · exact hc c hm

end

/-! ### The bytes of a state -/

/-- Memory of `s` is in its canonical form. -/
abbrev State.memWf (s : State) : Prop := Memory.wf s.cfg.resetByte s.mem = true

@[simp] theorem State.readByte_writeByte (s : State) (a : Nat) (b : Byte) (a' : Nat) :
    (s.writeByte a b).readByte a' = if a = a' then b else s.readByte a' := by
  simp [State.readByte]

/-- Where a run of bytes was stored each address reads its byte; every other address reads as before. -/
theorem State.readByte_storeBytes (s : State) (a : Nat) (bs : List Byte) (a' : Nat) :
    (s.storeBytes a bs).readByte a' =
      if h : a ≤ a' ∧ a' < a + bs.length then bs[a' - a]'(by omega) else s.readByte a' := by
  induction bs generalizing s a with
  | nil => simp [State.storeBytes]
  | cons b bs ih =>
    simp only [State.storeBytes, ih, State.readByte_writeByte, List.length_cons]
    by_cases h1 : a + 1 ≤ a' ∧ a' < a + 1 + bs.length
    · have h2 : a ≤ a' ∧ a' < a + (bs.length + 1) := by omega
      have h3 : a' - a = (a' - (a + 1)) + 1 := by omega
      rw [dif_pos h1, dif_pos h2]
      simp only [h3, List.getElem_cons_succ]
    · rw [dif_neg h1]
      by_cases h2 : a = a'
      · subst h2; simp
      · have h3 : ¬ (a ≤ a' ∧ a' < a + (bs.length + 1)) := by omega
        rw [dif_neg h3, if_neg h2]

theorem State.memWf_writeByte {s : State} (h : s.memWf) {a : Nat} (ha : a < memSize) (b : Byte) :
    (s.writeByte a b).memWf := Memory.wf_write _ h ha b

/-- A run of stores inside Memory keeps the canonical form. -/
theorem State.memWf_storeBytes {s : State} (h : s.memWf) {a : Nat} {bs : List Byte}
    (hb : a + bs.length ≤ memSize) : (s.storeBytes a bs).memWf := by
  induction bs generalizing s a with
  | nil => exact h
  | cons b bs ih =>
    simp only [List.length_cons] at hb
    exact ih (State.memWf_writeByte h (by omega) b) (by omega)

/-- The cells after a run of stores are old ones or lie at the addresses stored to. -/
theorem State.mem_storeBytes {s : State} {a : Nat} {bs : List Byte} {c : Host.Cell}
    (h : c ∈ (s.storeBytes a bs).mem) : a ≤ c.1 ∨ c ∈ s.mem := by
  induction bs generalizing s a with
  | nil => exact .inr h
  | cons b bs ih =>
    rcases ih h with h | h
    · exact .inl (by omega)
    · rcases Memory.mem_write _ h with ⟨rfl, -⟩ | h
      · exact .inl (Nat.le_refl _)
      · exact .inr h

@[simp] theorem State.memWf_resetWith (cfg : Config) : (State.resetWith cfg).memWf := Memory.wf_nil _

end Sys2Proof.Machine
end

