-- ==== Sys2Proof/Laws/Ops.lean ====
section
/-! SUPPORT. One lemma for each shared operation that says once what it does. -/

namespace Sys2Proof.Machine

/-! ### Address checks -/

/-- A run of reads is allowed exactly when it is empty or ends at or below 0xFFF (20_memory.md R55). -/
theorem firstBadRead_eq_none {b n : Nat} : firstBadRead b n = none ↔ n = 0 ∨ b + n ≤ 0x1000 := by
  simp only [firstBadRead, List.find?_eq_none, List.mem_range'_1, readFails, decide_eq_true_eq]
  constructor
  · intro h
    by_cases hn : n = 0
    · exact .inl hn
    · have := h (b + n - 1) (by omega)
      omega
  · intro h a ha
    omega

/-- The first failing address of an ascending run is the first that fails at all. -/
theorem find?_range'_eq_some {p : Nat → Bool} {b n a : Nat} :
    (List.range' b n).find? p = some a ↔ p a = true ∧ b ≤ a ∧ a < b + n ∧ ∀ k, b ≤ k → k < a → p k = false := by
  induction n generalizing b with
  | zero => simp; omega
  | succ n ih =>
    rw [List.range'_succ, List.find?_cons]
    cases hb : p b with
    | true =>
      simp only [Option.some.injEq]
      constructor
      · rintro rfl
        exact ⟨hb, Nat.le_refl _, by omega, fun k h1 h2 => by omega⟩
      · rintro ⟨-, h1, -, h2⟩
        by_contra hne
        exact absurd (h2 b (Nat.le_refl _) (by omega)) (by simp [hb])
    | false =>
      rw [ih]
      constructor
      · rintro ⟨h1, h2, h3, h4⟩
        refine ⟨h1, by omega, by omega, fun k hk hk' => ?_⟩
        by_cases hkb : k = b
        · exact hkb ▸ hb
        · exact h4 k (by omega) hk'
      · rintro ⟨h1, h2, h3, h4⟩
        have hab : a ≠ b := fun h => by simp [h, hb] at h1
        exact ⟨h1, by omega, by omega, fun k hk hk' => h4 k (by omega) hk'⟩

/-- The read that fails first is the lowest address of the run above 0xFFF (20_memory.md R57). -/
theorem firstBadRead_eq_some {b n a : Nat} :
    firstBadRead b n = some a ↔ a = max b 0x1000 ∧ 0x1000 < b + n ∧ 0 < n := by
  simp only [firstBadRead, find?_range'_eq_some, readFails, decide_eq_true_eq, decide_eq_false_iff_not]
  constructor
  · rintro ⟨h1, h2, h3, h4⟩
    have := h4 (a - 1)
    omega
  · rintro ⟨rfl, h2, h3⟩
    exact ⟨by omega, by omega, by omega, fun k hk hk' => by omega⟩

/-- A run of writes is allowed exactly when it is empty, or ends at or below 0xFFF and, under `FONT_WRITE` = fault,
begins past the font (20_memory.md R56). -/
theorem firstBadWrite_eq_none {fw : FontWrite} {b n : Nat} :
    firstBadWrite fw b n = none ↔ n = 0 ∨ (b + n ≤ 0x1000 ∧ (fw = .fault → 0x50 ≤ b)) := by
  simp only [firstBadWrite, List.find?_eq_none, List.mem_range'_1, writeFails, Bool.or_eq_true, Bool.and_eq_true,
    decide_eq_true_eq]
  constructor
  · intro h
    by_cases hn : n = 0
    · exact .inl hn
    · refine .inr ⟨?_, fun hf => ?_⟩
      · have := h (b + n - 1) (by omega)
        omega
      · have := h b (by omega)
        simp only [hf, and_true] at this
        omega
  · rintro (h | ⟨h1, h2⟩) a ha
    · omega
    · rintro (h | ⟨h, hf⟩)
      · omega
      · have := h2 hf
        omega

/-- The write that fails first is the first of the run if that lies in a font region that may not be written, else
the lowest address of the run above 0xFFF (20_memory.md R56, R57). -/
theorem firstBadWrite_eq_some {fw : FontWrite} {b n a : Nat} (h : firstBadWrite fw b n = some a) :
    0 < n ∧ ((a = b ∧ b ≤ 0x4F ∧ fw = .fault) ∨ (a = max b 0x1000 ∧ 0x1000 < b + n)) := by
  simp only [firstBadWrite, find?_range'_eq_some, writeFails, Bool.or_eq_true, Bool.and_eq_true, decide_eq_true_eq,
    Bool.or_eq_false_iff, decide_eq_false_iff_not, Bool.and_eq_false_iff] at h
  obtain ⟨h1, h2, h3, h4⟩ := h
  refine ⟨by omega, ?_⟩
  rcases h1 with h1 | ⟨h1, hf⟩
  · right
    have := h4 (a - 1)
    omega
  · left
    refine ⟨?_, by omega, hf⟩
    by_contra hne
    have := (h4 b (Nat.le_refl _) (by omega)).2
    rcases this with h | h
    · omega
    · exact h hf

/-! ### Frames of the updates -/

variable (s : State)

theorem frame_refl (f : Footprint) : Frame f s s := by
  constructor <;> intros <;> (try constructor) <;> rfl

/-- Two frames in a row. -/
theorem Frame.trans {f g h : Footprint} {s t u : State} (h1 : Frame f s t) (h2 : Frame g t u)
    (regs : ∀ x, f.regs x ∨ g.regs x → h.regs x) (index : f.index ∨ g.index → h.index)
    (stackPointer : f.stackPointer ∨ g.stackPointer → h.stackPointer)
    (slots : ∀ k, f.slots k ∨ g.slots k → h.slots k) (delay : f.delay ∨ g.delay → h.delay)
    (sound : f.sound ∨ g.sound → h.sound) (display : f.display ∨ g.display → h.display)
    (fault : f.fault ∨ g.fault → h.fault) (random : f.random ∨ g.random → h.random)
    (mem : ∀ a, f.mem a ∨ g.mem a → h.mem a) : Frame h s u where
  regs x hx := (h2.regs x (fun k => hx (regs x (.inr k)))).trans (h1.regs x (fun k => hx (regs x (.inl k))))
  index hx := (h2.index (fun k => hx (index (.inr k)))).trans (h1.index (fun k => hx (index (.inl k))))
  stackPointer hx :=
    (h2.stackPointer (fun k => hx (stackPointer (.inr k)))).trans (h1.stackPointer (fun k => hx (stackPointer (.inl k))))
  slots x hx := (h2.slots x (fun k => hx (slots x (.inr k)))).trans (h1.slots x (fun k => hx (slots x (.inl k))))
  slotCount := h2.slotCount.trans h1.slotCount
  delay hx := (h2.delay (fun k => hx (delay (.inr k)))).trans (h1.delay (fun k => hx (delay (.inl k))))
  sound hx := (h2.sound (fun k => hx (sound (.inr k)))).trans (h1.sound (fun k => hx (sound (.inl k))))
  display hx := (h2.display (fun k => hx (display (.inr k)))).trans (h1.display (fun k => hx (display (.inl k))))
  runState hx := (h2.runState (fun k => hx (fault (.inr k)))).trans (h1.runState (fun k => hx (fault (.inl k))))
  fault hx := (h2.fault (fun k => hx (fault (.inr k)))).trans (h1.fault (fun k => hx (fault (.inl k))))
  faultPc hx := (h2.faultPc (fun k => hx (fault (.inr k)))).trans (h1.faultPc (fun k => hx (fault (.inl k))))
  faultInfo hx := (h2.faultInfo (fun k => hx (fault (.inr k)))).trans (h1.faultInfo (fun k => hx (fault (.inl k))))
  random hx :=
    ⟨(h2.random (fun k => hx (random (.inr k)))).1.trans (h1.random (fun k => hx (random (.inl k)))).1,
      (h2.random (fun k => hx (random (.inr k)))).2.trans (h1.random (fun k => hx (random (.inl k)))).2⟩
  mem x hx := (h2.mem x (fun k => hx (mem x (.inr k)))).trans (h1.mem x (fun k => hx (mem x (.inl k))))
  keys := h2.keys.trans h1.keys
  cfg := h2.cfg.trans h1.cfg
  phase := h2.phase.trans h1.phase
  polls := ⟨h2.polls.1.trans h1.polls.1, h2.polls.2.trans h1.polls.2⟩
  shown := ⟨h2.shown.1.trans h1.shown.1, h2.shown.2.trans h1.shown.2⟩

theorem frame_setReg (x : Reg) (b : Byte) : Frame { regs := (· = x) } s (s.setReg x b) := by
  constructor <;> simp +contextual [eq_comm]

theorem frame_setPc (w : Word) : Frame {} s (s.setPc w) := by constructor <;> simp

theorem frame_skipIf (c : Bool) : Frame {} s (s.skipIf c) := by constructor <;> simp

theorem frame_setI (w : Word) : Frame { index := True } s (s.setI w) := by constructor <;> simp

theorem frame_setDt (b : Byte) : Frame { delay := True } s (s.setDt b) := by constructor <;> simp

theorem frame_setSt (b : Byte) : Frame { sound := True } s (s.setSt b) := by constructor <;> simp

theorem frame_setDisplay (d : Display) : Frame { display := True } s (s.setDisplay d) := by constructor <;> simp

theorem frame_setRegThenFlag (x : Reg) (b : Byte) (c : Bool) :
    Frame { regs := fun r => r = x ∨ r = VF } s (s.setRegThenFlag x b c) := by
  constructor <;> simp +contextual [State.setRegThenFlag_reg, eq_comm]

theorem frame_setLogic (x : Reg) (b : Byte) :
    Frame { regs := fun r => r = x ∨ (s.cfg.quirkLogicVfReset = true ∧ r = VF) } s (s.setLogic x b) := by
  constructor
  case regs =>
    intro r hr
    rw [State.setLogic_reg, if_neg (fun h => hr (.inr h)), if_neg (fun h => hr (.inl h.symm))]
  all_goals simp

theorem frame_afterDraw : Frame { random := True } s s.afterDraw := by constructor <;> simp

theorem frame_enterFault (c : FaultCode) (a n : Word) : Frame { fault := True } s (s.enterFault c a n) := by
  constructor <;> simp

theorem frame_storeBytes (a : Nat) (bs : List Byte) :
    Frame { mem := fun k => a ≤ k ∧ k < a + bs.length } s (s.storeBytes a bs) := by
  constructor
  case mem =>
    intro k hk
    rw [State.readByte_storeBytes, dif_neg hk]
  all_goals simp

theorem frame_push (w : Word) : Frame { stackPointer := True, slots := (· = s.sp) } s (s.push w) := by
  constructor <;> simp +contextual [eq_comm]

theorem frame_pop : Frame { stackPointer := True } s s.pop := by constructor <;> simp

/-! ### Taking a fault -/

/-- Raising a fault in the execute phase is fault entry (60_exceptions.md R231). -/
theorem takesFault_raise (c : FaultCode) (n : Word) : TakesFault c n.toNat s (s.raise c n) :=
  ⟨rfl, rfl, rfl, rfl, rfl, frame_enterFault s _ _ _⟩

theorem takesFault_raiseMemory {a : Nat} (ha : a < 65536) : TakesFault .memoryFault a s (s.raiseMemory a) := by
  have := takesFault_raise s .memoryFault (BitVec.ofNat 16 a)
  rwa [BitVec.toNat_ofNat, Nat.mod_eq_of_lt ha] at this

/-! ### Keys -/

/-- The key that FX0A captures is pressed and no lower one is (43_keypad_timers.md R196). -/
theorem lowestKey_eq_some {keys : Keypad} {k : Reg} :
    lowestKey keys = some k ↔ keys[k] = true ∧ ∀ j < k, keys[j] = false := by
  simp only [lowestKey, List.find?_eq_some_iff_getElem, List.getElem_finRange, List.length_finRange]
  constructor
  · rintro ⟨hk, i, hi, rfl, hj⟩
    refine ⟨hk, fun j hlt => ?_⟩
    have := hj j.val (by simpa [Fin.lt_def] using hlt)
    simpa using this
  · rintro ⟨hk, hj⟩
    refine ⟨hk, k.val, k.isLt, by simp, fun j hlt => ?_⟩
    simpa using hj ⟨j, by omega⟩ (by simpa [Fin.lt_def] using hlt)

theorem lowestKey_eq_none {keys : Keypad} : lowestKey keys = none ↔ ∀ k : Reg, keys[k] = false := by
  simp [lowestKey, List.find?_eq_none]

/-! ### The display -/

/-- A flip changes the one cell it names. -/
theorem Display.cell_flip (d : Display) (y x Y X : Nat) (hy : y < 32) (hx : x < 64) :
    (d.flip y x).cell Y X = if y = Y ∧ x = X then !d.cell Y X else d.cell Y X := by
  unfold Display.flip
  rw [dif_pos ⟨hy, hx⟩]
  unfold Display.cell
  by_cases h : Y < 32 ∧ X < 64
  · simp only [dif_pos h]
    by_cases hyY : y = Y
    · subst hyY
      by_cases hxX : x = X
      · subst hxX; simp
      · simp [hxX]
    · simp [hyY]
  · have : ¬ (y = Y ∧ x = X) := by omega
    simp [dif_neg h, this]

@[simp] theorem Display.cell_clear (y x : Nat) : Display.clear.cell y x = false := by
  unfold Display.cell Display.clear
  split <;> simp

/-- Two displays with the same cells are the same display. -/
theorem Display.ext_cell {d e : Display} (h : ∀ y x, y < 32 → x < 64 → d.cell y x = e.cell y x) : d = e := by
  apply Vector.ext
  intro y hy
  apply Vector.ext
  intro x hx
  have := h y x hy hx
  simpa [Display.cell, hy, hx] using this

end Sys2Proof.Machine
end

