-- ==== Sys2Proof/Laws/Drawing.lean ====
section
/-! SUPPORT. What the two loops of DXYN do to each cell and to the collision flag (42_display.md R172). -/

namespace Sys2Proof.Machine

/-- The columns of one row: each set bit flips its cell, and the collision is set where such a cell was lit. -/
theorem Canvas.columns_spec (cv : Canvas) (b : Byte) (y x0 m : Nat) (hy : y < 32) (hm : x0 + m ≤ 64) :
    let cv' := (List.range m).foldl (fun cv c => if b.getMsbD c then cv.plot y (x0 + c) else cv) cv
    (∀ Y X, cv'.display.cell Y X =
      (cv.display.cell Y X ^^ (decide (Y = y ∧ x0 ≤ X ∧ X < x0 + m) && b.getMsbD (X - x0)))) ∧
    (cv'.collision = true ↔
      cv.collision = true ∨ ∃ c < m, b.getMsbD c = true ∧ cv.display.cell y (x0 + c) = true) := by
  induction m with
  | zero =>
    constructor
    · intro Y X
      have : ¬ (Y = y ∧ x0 ≤ X ∧ X < x0 + 0) := by omega
      rw [List.range_zero, List.foldl_nil, decide_eq_false this, Bool.false_and, Bool.xor_false]
    · simp
  | succ m ih =>
    obtain ⟨hcell, hcol⟩ := ih (by omega)
    simp only [List.range_succ, List.foldl_append, List.foldl_cons, List.foldl_nil]
    set cv' := (List.range m).foldl (fun cv c => if b.getMsbD c then cv.plot y (x0 + c) else cv) cv with hcv'
    have hold : cv'.display.cell y (x0 + m) = cv.display.cell y (x0 + m) := by
      rw [hcell]
      have : ¬ (y = y ∧ x0 ≤ x0 + m ∧ x0 + m < x0 + m) := by omega
      rw [decide_eq_false this, Bool.false_and, Bool.xor_false]
    by_cases hb : b.getMsbD m = true
    · rw [if_pos hb]
      constructor
      · intro Y X
        rw [Canvas.plot, Display.cell_flip _ _ _ _ _ hy (by omega), hcell]
        by_cases h : y = Y ∧ x0 + m = X
        · obtain ⟨rfl, rfl⟩ := h
          simp [hb]
        · rw [if_neg h]
          have : (Y = y ∧ x0 ≤ X ∧ X < x0 + m) ↔ (Y = y ∧ x0 ≤ X ∧ X < x0 + (m + 1)) := by omega
          simp only [this]
      · simp only [Canvas.plot, Bool.or_eq_true, hcol, hold]
        constructor
        · rintro ((h | ⟨c, hc, h⟩) | h)
          · exact .inl h
          · exact .inr ⟨c, by omega, h⟩
          · exact .inr ⟨m, by omega, hb, h⟩
        · rintro (h | ⟨c, hc, h⟩)
          · exact .inl (.inl h)
          · by_cases hcm : c = m
            · exact .inr (hcm ▸ h.2)
            · exact .inl (.inr ⟨c, by omega, h⟩)
    · rw [if_neg hb]
      constructor
      · intro Y X
        rw [hcell]
        by_cases h : Y = y ∧ X = x0 + m
        · obtain ⟨rfl, rfl⟩ := h
          simp [hb]
        · have : (Y = y ∧ x0 ≤ X ∧ X < x0 + m) ↔ (Y = y ∧ x0 ≤ X ∧ X < x0 + (m + 1)) := by omega
          simp only [this]
      · rw [hcol]
        constructor
        · rintro (h | ⟨c, hc, h⟩)
          · exact .inl h
          · exact .inr ⟨c, by omega, h⟩
        · rintro (h | ⟨c, hc, h⟩)
          · exact .inl h
          · have : c ≠ m := fun e => hb (e ▸ h.1)
            exact .inr ⟨c, by omega, h⟩

/-- One sprite row drawn at (x0, y). -/
theorem Canvas.drawRow_spec (cv : Canvas) (b : Byte) (y x0 : Nat) (hy : y < 32) (hx : x0 < 64) :
    (∀ Y X, X < 64 → (cv.drawRow b y x0).display.cell Y X =
      (cv.display.cell Y X ^^ (decide (Y = y ∧ x0 ≤ X ∧ X < x0 + 8) && b.getMsbD (X - x0)))) ∧
    ((cv.drawRow b y x0).collision = true ↔ cv.collision = true ∨
      ∃ X < 64, x0 ≤ X ∧ X < x0 + 8 ∧ b.getMsbD (X - x0) = true ∧ cv.display.cell y X = true) := by
  have hv : x0 + visibleColumns x0 ≤ 64 := by simp only [visibleColumns, screenWidth]; omega
  obtain ⟨hcell, hcol⟩ := Canvas.columns_spec cv b y x0 (visibleColumns x0) hy hv
  constructor
  · intro Y X hX
    rw [Canvas.drawRow, hcell]
    have : (Y = y ∧ x0 ≤ X ∧ X < x0 + visibleColumns x0) ↔ (Y = y ∧ x0 ≤ X ∧ X < x0 + 8) := by
      simp only [visibleColumns, screenWidth]; omega
    simp only [this]
  · rw [Canvas.drawRow, hcol]
    refine or_congr Iff.rfl ⟨?_, ?_⟩
    · rintro ⟨c, hc, hb, h⟩
      refine ⟨x0 + c, by omega, by omega, ?_, by rwa [Nat.add_sub_cancel_left], h⟩
      simp only [visibleColumns, screenWidth] at hc; omega
    · rintro ⟨X, hX, h1, h2, hb, h⟩
      refine ⟨X - x0, ?_, hb, by rwa [Nat.add_sub_cancel' h1]⟩
      simp only [visibleColumns, screenWidth]; omega

/-- All rows of a sprite: a cell flips where the sprite has a set bit, and the collision is set where such a cell was lit. -/
theorem Canvas.drawRows_spec (cv : Canvas) (bytes : Nat → Byte) (rows y0 x0 : Nat) (hy : y0 + rows ≤ 32) (hx : x0 < 64) :
    (∀ Y X, X < 64 → (cv.drawRows bytes rows y0 x0).display.cell Y X =
      (cv.display.cell Y X ^^
        (decide (y0 ≤ Y ∧ Y < y0 + rows ∧ x0 ≤ X ∧ X < x0 + 8) && (bytes (Y - y0)).getMsbD (X - x0)))) ∧
    ((cv.drawRows bytes rows y0 x0).collision = true ↔ cv.collision = true ∨
      ∃ Y X, X < 64 ∧ (y0 ≤ Y ∧ Y < y0 + rows ∧ x0 ≤ X ∧ X < x0 + 8) ∧
        (bytes (Y - y0)).getMsbD (X - x0) = true ∧ cv.display.cell Y X = true) := by
  induction rows with
  | zero =>
    constructor
    · intro Y X hX
      have : ¬ (y0 ≤ Y ∧ Y < y0 + 0 ∧ x0 ≤ X ∧ X < x0 + 8) := by omega
      rw [Canvas.drawRows, List.range_zero, List.foldl_nil, decide_eq_false this, Bool.false_and, Bool.xor_false]
    · simp only [Canvas.drawRows, List.range_zero, List.foldl_nil]
      refine ⟨.inl, ?_⟩
      rintro (h | ⟨Y, X, hX, h, -⟩)
      · exact h
      · omega
  | succ rows ih =>
    obtain ⟨hcell, hcol⟩ := ih (by omega)
    have hstep : cv.drawRows bytes (rows + 1) y0 x0 =
        (cv.drawRows bytes rows y0 x0).drawRow (bytes rows) (y0 + rows) x0 := by
      simp only [Canvas.drawRows, List.range_succ, List.foldl_append, List.foldl_cons, List.foldl_nil]
    obtain ⟨rcell, rcol⟩ := Canvas.drawRow_spec (cv.drawRows bytes rows y0 x0) (bytes rows) (y0 + rows) x0 (by omega) hx
    have hold : ∀ X < 64, (cv.drawRows bytes rows y0 x0).display.cell (y0 + rows) X = cv.display.cell (y0 + rows) X := by
      intro X hX
      rw [hcell _ _ hX]
      have : ¬ (y0 ≤ y0 + rows ∧ y0 + rows < y0 + rows ∧ x0 ≤ X ∧ X < x0 + 8) := by omega
      rw [decide_eq_false this, Bool.false_and, Bool.xor_false]
    rw [hstep]
    constructor
    · intro Y X hX
      rw [rcell Y X hX, hcell Y X hX]
      by_cases h : Y = y0 + rows
      · subst h
        have h1 : ¬ (y0 ≤ y0 + rows ∧ y0 + rows < y0 + rows ∧ x0 ≤ X ∧ X < x0 + 8) := by omega
        have h2 : (y0 + rows = y0 + rows ∧ x0 ≤ X ∧ X < x0 + 8) ↔
            (y0 ≤ y0 + rows ∧ y0 + rows < y0 + (rows + 1) ∧ x0 ≤ X ∧ X < x0 + 8) := by omega
        rw [decide_eq_false h1, Bool.false_and, Bool.xor_false, Nat.add_sub_cancel_left, decide_eq_decide.2 h2]
      · have h1 : ¬ (Y = y0 + rows ∧ x0 ≤ X ∧ X < x0 + 8) := by omega
        have h2 : (y0 ≤ Y ∧ Y < y0 + rows ∧ x0 ≤ X ∧ X < x0 + 8) ↔
            (y0 ≤ Y ∧ Y < y0 + (rows + 1) ∧ x0 ≤ X ∧ X < x0 + 8) := by omega
        rw [decide_eq_false h1, Bool.false_and, Bool.xor_false, decide_eq_decide.2 h2]
    · rw [rcol, hcol]
      constructor
      · rintro ((h | ⟨Y, X, hX, h, h'⟩) | ⟨X, hX, h1, h2, hb, h⟩)
        · exact .inl h
        · exact .inr ⟨Y, X, hX, by omega, h'⟩
        · exact .inr ⟨y0 + rows, X, hX, by omega, by rwa [Nat.add_sub_cancel_left], by rwa [hold X hX] at h⟩
      · rintro (h | ⟨Y, X, hX, h, hb, hc⟩)
        · exact .inl (.inl h)
        · by_cases hY : Y = y0 + rows
          · subst hY
            exact .inr ⟨X, hX, by omega, by omega, by rwa [Nat.add_sub_cancel_left] at hb, by rwa [hold X hX]⟩
          · exact .inl (.inr ⟨Y, X, hX, by omega, hb, hc⟩)

/-- A sprite byte's bit by its number and by division, the spec's `(b >> (7 - c)) & 1`. -/
theorem getMsbD_eq_div (b : Byte) (c : Nat) (hc : c < 8) : b.getMsbD c = decide (b.toNat / 2 ^ (7 - c) % 2 = 1) := by
  rw [BitVec.getMsbD_eq_getLsbD, BitVec.getLsbD, Nat.testBit_eq_decide_div_mod_eq]
  simp [hc]

end Sys2Proof.Machine
end

