-- ==== Sys2Proof/Laws/Exec.lean ====
section
/-! SUPPORT. Once for all instructions: what each may write, and that a meaning either takes its one fault or keeps to that. -/

namespace Sys2Proof.Machine

/-- What an instruction may write when it takes no fault, read off its rule. -/
def State.footprintOf (s : State) : Instr → Footprint
  | .cls => { display := True }
  | .ret => { stackPointer := True }
  | .jp _ | .jpV0 _ => {}
  | .call _ => { stackPointer := True, slots := (· = s.sp) }
  | .seImm _ _ | .sneImm _ _ | .seReg _ _ | .sneReg _ _ | .skp _ | .sknp _ => {}
  | .ldImm x _ | .addImm x _ | .ldReg x _ | .ldFromDt x | .ldKey x => { regs := (· = x) }
  | .orReg x _ | .andReg x _ | .xorReg x _ =>
    { regs := fun r => r = x ∨ (s.cfg.quirkLogicVfReset = true ∧ r = VF) }
  | .addReg x _ | .sub x _ | .shr x _ | .subn x _ | .shl x _ => { regs := fun r => r = x ∨ r = VF }
  | .rnd x _ => { regs := (· = x), random := True }
  | .drw _ _ _ => { regs := (· = VF), display := True }
  | .ldToDt _ => { delay := True }
  | .ldToSt _ => { sound := True }
  | .ldI _ | .addI _ | .ldFont _ => { index := True }
  | .ldBcd _ => { mem := fun a => s.base ≤ a ∧ a < s.base + 3 ∧ (s.cfg.fontWrite = .fault → 0x50 ≤ a) }
  | .storeRegs x => { mem := fun a => s.base ≤ a ∧ a < s.base + (x.val + 1) ∧ (s.cfg.fontWrite = .fault → 0x50 ≤ a) }
  | .loadRegs x => { regs := (· ≤ x) }

/-- The one kind of execute fault an instruction can raise (60_exceptions.md R233). -/
def ownFault : Instr → FaultCode
  | .ret => .stackUnderflow
  | .call _ => .stackOverflow
  | .skp _ | .sknp _ => .keyIndexFault
  | .drw _ _ _ | .ldBcd _ | .storeRegs _ | .loadRegs _ => .memoryFault
  | .cls | .jp _ | .jpV0 _ | .seImm _ _ | .sneImm _ _ | .seReg _ _ | .sneReg _ _ => .none
  | .ldImm _ _ | .addImm _ _ | .ldReg _ _ | .ldFromDt _ | .ldKey _ | .orReg _ _ | .andReg _ _ | .xorReg _ _ => .none
  | .addReg _ _ | .sub _ _ | .shr _ _ | .subn _ _ | .shl _ _ | .rnd _ _ => .none
  | .ldToDt _ | .ldToSt _ | .ldI _ | .addI _ | .ldFont _ => .none

theorem frame_drawn (s : State) (d : Display) (b : Byte) :
    Frame { regs := (· = VF), display := True } s ((s.setDisplay d).setReg VF b) := by
  constructor <;> simp +contextual [eq_comm]

theorem frame_rnd (s : State) (x : Reg) (b : Byte) :
    Frame { regs := (· = x), random := True } s (s.afterDraw.setReg x b) := by
  constructor <;> simp +contextual [eq_comm]

theorem frame_call (s : State) (w : Word) :
    Frame { stackPointer := True, slots := (· = s.sp) } s ((s.push s.pc).setPc w) := by
  constructor <;> simp +contextual [eq_comm]

theorem frame_ret (s : State) (w : Word) : Frame { stackPointer := True } s (s.pop.setPc w) := by
  constructor <;> simp

theorem frame_loadedRegs (s : State) (x : Reg) : Frame { regs := (· ≤ x) } s (s.setRegs (s.loadedRegs x)) := by
  constructor
  case regs =>
    intro r hr
    simp only [State.reg, State.setRegs_v, State.loadedRegs, Fin.getElem_fin, Vector.getElem_ofFn]
    rw [if_neg (by simpa using hr)]
  all_goals simp

/-- A run of stores that the checks allow writes neither above 0xFFF nor, under `FONT_WRITE` = fault, in the font. -/
theorem frame_checkedStore {s : State} {n : Nat} (h : firstBadWrite s.cfg.fontWrite s.base n = none)
    {bs : List Byte} (hn : bs.length = n) :
    Frame { mem := fun a => s.base ≤ a ∧ a < s.base + n ∧ (s.cfg.fontWrite = .fault → 0x50 ≤ a) } s
      (s.storeBytes s.base bs) := by
  have f := frame_storeBytes s s.base bs
  constructor
  case mem =>
    intro a ha
    refine f.mem a fun h' => ha ⟨h'.1, hn ▸ h'.2, fun hf => ?_⟩
    rcases firstBadWrite_eq_none.1 h with h0 | ⟨-, h2⟩
    · simp only [hn, h0] at h'; omega
    · exact Nat.le_trans (h2 hf) h'.1
  all_goals simp

theorem regRange_length (s : State) (x : Reg) : (s.regRange x).length = rangeCount x := by
  simp [State.regRange, rangeCount]

/-- Everything an execute phase can do: take its one fault precisely, or go on within its footprint. -/
theorem exec_next {i : Instr} {s t : State} (h : exec i s = .next t) :
    (∃ n, ownFault i ≠ .none ∧ t = s.raise (ownFault i) n) ∨ Frame (s.footprintOf i) s t := by
  cases i <;> simp only [exec] at h
  case cls => cases h; exact .inr (frame_setDisplay s _)
  case jp => cases h; exact .inr (frame_setPc s _)
  case jpV0 => cases h; exact .inr (frame_setPc s _)
  case seImm => cases h; exact .inr (frame_skipIf s _)
  case sneImm => cases h; exact .inr (frame_skipIf s _)
  case seReg => cases h; exact .inr (frame_skipIf s _)
  case sneReg => cases h; exact .inr (frame_skipIf s _)
  case ldImm => cases h; exact .inr (frame_setReg s _ _)
  case addImm => cases h; exact .inr (frame_setReg s _ _)
  case ldReg => cases h; exact .inr (frame_setReg s _ _)
  case ldFromDt => cases h; exact .inr (frame_setReg s _ _)
  case orReg => cases h; exact .inr (frame_setLogic s _ _)
  case andReg => cases h; exact .inr (frame_setLogic s _ _)
  case xorReg => cases h; exact .inr (frame_setLogic s _ _)
  case addReg => cases h; exact .inr (frame_setRegThenFlag s _ _ _)
  case sub => cases h; exact .inr (frame_setRegThenFlag s _ _ _)
  case shr => cases h; exact .inr (frame_setRegThenFlag s _ _ _)
  case subn => cases h; exact .inr (frame_setRegThenFlag s _ _ _)
  case shl => cases h; exact .inr (frame_setRegThenFlag s _ _ _)
  case rnd => cases h; exact .inr (frame_rnd s _ _)
  case ldToDt => cases h; exact .inr (frame_setDt s _)
  case ldToSt => cases h; exact .inr (frame_setSt s _)
  case ldI => cases h; exact .inr (frame_setI s _)
  case addI => cases h; exact .inr (frame_setI s _)
  case ldFont => cases h; exact .inr (frame_setI s _)
  case ret =>
    simp only [execRet] at h
    split at h
    · cases h; exact .inl ⟨_, by decide, rfl⟩
    · split at h
      · cases h; exact .inr (frame_ret s _)
      · cases h
  case call =>
    simp only [execCall] at h
    split at h
    · cases h; exact .inl ⟨_, nofun, rfl⟩
    · split at h
      · cases h; exact .inr (frame_call s _)
      · cases h
  case drw =>
    simp only [execDrw] at h
    split at h
    · cases h; exact .inl ⟨_, nofun, rfl⟩
    · cases h; exact .inr (frame_drawn s _ _)
  case skp =>
    simp only [execSkp] at h
    split at h
    · cases h; exact .inr (frame_skipIf s _)
    · cases h; exact .inl ⟨_, nofun, rfl⟩
  case sknp =>
    simp only [execSknp] at h
    split at h
    · cases h; exact .inr (frame_skipIf s _)
    · cases h; exact .inl ⟨_, nofun, rfl⟩
  case ldKey x =>
    simp only [execLdKey] at h
    split at h
    · cases h; exact .inr (frame_setReg s _ _)
    · cases h
      have f := frame_setPc s (s.pc - 2)
      exact .inr (by constructor <;> simp)
  case ldBcd =>
    simp only [execLdBcd] at h
    split at h
    · cases h; exact .inl ⟨_, nofun, rfl⟩
    next hn => cases h; exact .inr (frame_checkedStore (bs := bcdDigits _) hn rfl)
  case storeRegs x =>
    simp only [execStoreRegs] at h
    split at h
    · cases h; exact .inl ⟨_, nofun, rfl⟩
    next hn => cases h; exact .inr (frame_checkedStore hn (regRange_length s x))
  case loadRegs =>
    simp only [execLoadRegs] at h
    split at h
    · cases h; exact .inl ⟨_, nofun, rfl⟩
    · cases h; exact .inr (frame_loadedRegs s _)

/-- No footprint holds the fault status: a meaning that takes no fault leaves it. -/
@[simp] theorem State.footprintOf_fault (s : State) (i : Instr) : (s.footprintOf i).fault = False := by
  cases i <;> rfl

end Sys2Proof.Machine
end

