-- ==== Sys2Proof/Laws/PerInstr.lean ====
section
/-! SUPPORT. Per-instruction statements about the encoding: the family nibble of each instruction's word. -/

namespace Sys2Proof.Laws

/-- The family of an instruction, the top digit of its pattern in 30_encoding.md R75. -/
def familyOf : Instr → Nat
  | .cls | .ret => 0x0
  | .jp _ => 0x1
  | .call _ => 0x2
  | .seImm _ _ => 0x3
  | .sneImm _ _ => 0x4
  | .seReg _ _ => 0x5
  | .ldImm _ _ => 0x6
  | .addImm _ _ => 0x7
  | .ldReg _ _ | .orReg _ _ | .andReg _ _ | .xorReg _ _ | .addReg _ _ => 0x8
  | .sub _ _ | .shr _ _ | .subn _ _ | .shl _ _ => 0x8
  | .sneReg _ _ => 0x9
  | .ldI _ => 0xA
  | .jpV0 _ => 0xB
  | .rnd _ _ => 0xC
  | .drw _ _ _ => 0xD
  | .skp _ | .sknp _ => 0xE
  | .ldFromDt _ | .ldKey _ | .ldToDt _ | .ldToSt _ | .addI _ => 0xF
  | .ldFont _ | .ldBcd _ | .storeRegs _ | .loadRegs _ => 0xF

/-- The word of an instruction carries its family in bits 15:12, whatever the operands. -/
def FamilyNibble.Statement (i : Instr) : Prop := fieldCategory (encode i) = familyOf i

theorem FamilyNibble.cls : FamilyNibble.Statement .cls := rfl

theorem FamilyNibble.ret : FamilyNibble.Statement .ret := rfl

theorem FamilyNibble.jp (nnn : Word) : FamilyNibble.Statement (.jp nnn) := category_assembleNNN (by decide) nnn

theorem FamilyNibble.call (nnn : Word) : FamilyNibble.Statement (.call nnn) := category_assembleNNN (by decide) nnn

theorem FamilyNibble.seImm (x : Reg) (nn : Byte) : FamilyNibble.Statement (.seImm x nn) :=
  category_assembleXNN (by decide) x nn

theorem FamilyNibble.sneImm (x : Reg) (nn : Byte) : FamilyNibble.Statement (.sneImm x nn) :=
  category_assembleXNN (by decide) x nn

theorem FamilyNibble.seReg (x y : Reg) : FamilyNibble.Statement (.seReg x y) := category_assembleXYN (by decide) x y _

theorem FamilyNibble.ldImm (x : Reg) (nn : Byte) : FamilyNibble.Statement (.ldImm x nn) :=
  category_assembleXNN (by decide) x nn

theorem FamilyNibble.addImm (x : Reg) (nn : Byte) : FamilyNibble.Statement (.addImm x nn) :=
  category_assembleXNN (by decide) x nn

theorem FamilyNibble.ldReg (x y : Reg) : FamilyNibble.Statement (.ldReg x y) := category_assembleXYN (by decide) x y _

theorem FamilyNibble.orReg (x y : Reg) : FamilyNibble.Statement (.orReg x y) := category_assembleXYN (by decide) x y _

theorem FamilyNibble.andReg (x y : Reg) : FamilyNibble.Statement (.andReg x y) := category_assembleXYN (by decide) x y _

theorem FamilyNibble.xorReg (x y : Reg) : FamilyNibble.Statement (.xorReg x y) := category_assembleXYN (by decide) x y _

theorem FamilyNibble.addReg (x y : Reg) : FamilyNibble.Statement (.addReg x y) := category_assembleXYN (by decide) x y _

theorem FamilyNibble.sub (x y : Reg) : FamilyNibble.Statement (.sub x y) := category_assembleXYN (by decide) x y _

theorem FamilyNibble.shr (x y : Reg) : FamilyNibble.Statement (.shr x y) := category_assembleXYN (by decide) x y _

theorem FamilyNibble.subn (x y : Reg) : FamilyNibble.Statement (.subn x y) := category_assembleXYN (by decide) x y _

theorem FamilyNibble.shl (x y : Reg) : FamilyNibble.Statement (.shl x y) := category_assembleXYN (by decide) x y _

theorem FamilyNibble.sneReg (x y : Reg) : FamilyNibble.Statement (.sneReg x y) := category_assembleXYN (by decide) x y _

theorem FamilyNibble.ldI (nnn : Word) : FamilyNibble.Statement (.ldI nnn) := category_assembleNNN (by decide) nnn

theorem FamilyNibble.jpV0 (nnn : Word) : FamilyNibble.Statement (.jpV0 nnn) := category_assembleNNN (by decide) nnn

theorem FamilyNibble.rnd (x : Reg) (nn : Byte) : FamilyNibble.Statement (.rnd x nn) :=
  category_assembleXNN (by decide) x nn

theorem FamilyNibble.drw (x y : Reg) (n : Nat) : FamilyNibble.Statement (.drw x y n) :=
  category_assembleXYN (by decide) x y n

theorem FamilyNibble.skp (x : Reg) : FamilyNibble.Statement (.skp x) := category_assembleXNN (by decide) x _

theorem FamilyNibble.sknp (x : Reg) : FamilyNibble.Statement (.sknp x) := category_assembleXNN (by decide) x _

theorem FamilyNibble.ldFromDt (x : Reg) : FamilyNibble.Statement (.ldFromDt x) := category_assembleXNN (by decide) x _

theorem FamilyNibble.ldKey (x : Reg) : FamilyNibble.Statement (.ldKey x) := category_assembleXNN (by decide) x _

theorem FamilyNibble.ldToDt (x : Reg) : FamilyNibble.Statement (.ldToDt x) := category_assembleXNN (by decide) x _

theorem FamilyNibble.ldToSt (x : Reg) : FamilyNibble.Statement (.ldToSt x) := category_assembleXNN (by decide) x _

theorem FamilyNibble.addI (x : Reg) : FamilyNibble.Statement (.addI x) := category_assembleXNN (by decide) x _

theorem FamilyNibble.ldFont (x : Reg) : FamilyNibble.Statement (.ldFont x) := category_assembleXNN (by decide) x _

theorem FamilyNibble.ldBcd (x : Reg) : FamilyNibble.Statement (.ldBcd x) := category_assembleXNN (by decide) x _

theorem FamilyNibble.storeRegs (x : Reg) : FamilyNibble.Statement (.storeRegs x) := category_assembleXNN (by decide) x _

theorem FamilyNibble.loadRegs (x : Reg) : FamilyNibble.Statement (.loadRegs x) := category_assembleXNN (by decide) x _

end Sys2Proof.Laws
end

