-- ==== Sys2Proof/Laws/Step.lean ====
section
/-! SUPPORT. What one step can do. -/

namespace Sys2Proof.Machine

/-- The actions of a step: nothing in a terminal state, a poll, the end of a frame, or one instruction slot, in which the
fetch faults, an instruction executes, or an unrecognized opcode passes. -/
theorem step_next {s t : State} (h : step s = .next t) :
    ((s.rs = .quit ∨ s.rs = .faulted) ∧ t = s) ∨
    ((s.rs = .paused ∨ (s.rs = .running ∧ s.phase = .poll)) ∧ pollStep s = .next t) ∨
    (s.rs = .running ∧ s.phase = .batch 0 ∧ t = { s.render.tick with phase := .poll }) ∨
    ∃ left, s.rs = .running ∧ s.phase = .batch (left + 1) ∧
      ((s.fetchFails = true ∧ t = s.enterFault .decodeFault s.pc s.pc) ∨
       (s.fetchFails = false ∧
        ((∃ i, decode s.cfg.dispatchStrict s.fetchWord = .instr i ∧ exec i (s.afterFetch left) = .next t) ∨
         (∃ why, decode s.cfg.dispatchStrict s.fetchWord = .unrecognized why ∧ t = s.afterFetch left)))) := by
  simp only [step, State.nextAction] at h
  split at h
  case h_1 hr => cases h; exact .inl ⟨.inl hr, rfl⟩
  case h_2 hr => cases h; exact .inl ⟨.inr hr, rfl⟩
  case h_3 hr => exact .inr (.inl ⟨.inl hr, h⟩)
  case h_4 hr hp => exact .inr (.inl ⟨.inr ⟨hr, hp⟩, h⟩)
  case h_5 hr hp => cases h; exact .inr (.inr (.inl ⟨hr, hp, rfl⟩))
  case h_6 left hr hp =>
    refine .inr (.inr (.inr ⟨left, hr, hp, ?_⟩))
    simp only [stepInstr] at h
    split at h
    next hf => cases h; exact .inl ⟨hf, rfl⟩
    next hf =>
      refine .inr ⟨by simpa using hf, ?_⟩
      split at h
      next i hd => exact .inl ⟨i, hd, h⟩
      next why hd => cases h; exact .inr ⟨why, hd, rfl⟩

/-- A poll answers the polled state, at the start of a batch when RS is RUNNING and before the next poll otherwise. -/
theorem pollStep_next {s t : State} (h : pollStep s = .next t) :
    ((s.polled s.nextPoll).rs = .running ∧ s.cfg.ipf ≠ 0 ∧
      t = { s.polled s.nextPoll with phase := .batch s.cfg.ipf }) ∨
    ((s.polled s.nextPoll).rs ≠ .running ∧ t = { s.polled s.nextPoll with phase := .poll }) := by
  simp only [pollStep] at h
  split at h
  next hr =>
    split at h
    · cases h
    next hi => cases h; exact .inl ⟨hr, hi, rfl⟩
  next hr => cases h; exact .inr ⟨hr, rfl⟩

/-- In a running batch with a slot left the step is the instruction step. -/
theorem step_batch {s : State} {left : Nat} (hr : s.rs = .running) (hp : s.phase = .batch (left + 1)) :
    step s = stepInstr left s := by
  simp only [step, State.nextAction, hr, hp]

/-- A terminal state is its own next state. -/
theorem step_terminal {s : State} (h : s.rs = .quit ∨ s.rs = .faulted) : s.nextAction = .next s := by
  rcases h with h | h <;> simp only [State.nextAction, h]

end Sys2Proof.Machine
end

