-- ==== Sys2Proof/Tests/Slice0.lean ====
section
/-! SUPPORT. The model's own tests: ill-formed terms refused, words written out from 30_encoding.md R75, one step of each
instruction on the vectors of 95_test_vectors.md (named in each test's docstring), and a witness that meets the
hypotheses of each obligation. -/

namespace Sys2Proof.Tests

open Sys2Proof Sys2Proof.Machine

/-! ## WellFormed -/

/-- A 12-bit address is the bound of four instructions: 0x1000 is refused. -/
theorem test_wellFormed_refuses_wide_address :
    (Instr.jp 0x1000).wellFormed = false ∧ (Instr.call 0x1000).wellFormed = false ∧
    (Instr.ldI 0x1000).wellFormed = false ∧ (Instr.jpV0 0xFFFF).wellFormed = false := by decide

/-- A 4-bit row count is the bound of DXYN: 16 is refused. -/
theorem test_wellFormed_refuses_wide_row_count : (Instr.drw 0 0 16).wellFormed = false := by decide

theorem test_wellFormed_accepts_bounds :
    (Instr.jp 0xFFF).wellFormed = true ∧ (Instr.drw 15 15 15).wellFormed = true ∧ Instr.cls.wellFormed = true := by decide

/-! ## Words written out bit by bit from the formats of R73 and the patterns of R75 -/

theorem test_decode_fixed :
    decode true 0b0000000011100000 = .instr .cls ∧ decode true 0b0000000011101110 = .instr .ret := by decide

theorem test_decode_address :
    decode true 0b0001_0010_0011_0100 = .instr (.jp 0x234) ∧ decode true 0b0010_0010_0001_0000 = .instr (.call 0x210) ∧
    decode true 0b1010_0011_0000_0000 = .instr (.ldI 0x300) ∧ decode true 0b1011_1111_1111_1111 = .instr (.jpV0 0xFFF) := by
  decide

theorem test_decode_constant :
    decode true 0b0011_0011_0100_0010 = .instr (.seImm 3 0x42) ∧
    decode true 0b0100_0011_0100_0010 = .instr (.sneImm 3 0x42) ∧
    decode true 0b0110_1010_0111_1011 = .instr (.ldImm 0xA 0x7B) ∧
    decode true 0b0111_0000_1111_1111 = .instr (.addImm 0 0xFF) ∧
    decode true 0b1100_0011_0000_1111 = .instr (.rnd 3 0x0F) := by decide

theorem test_decode_two_registers :
    decode true 0b0101_0001_0010_0000 = .instr (.seReg 1 2) ∧ decode true 0b1001_0001_0010_0000 = .instr (.sneReg 1 2) ∧
    decode true 0b1101_0001_0010_1010 = .instr (.drw 1 2 10) := by decide

theorem test_decode_alu_low :
    decode true 0b1000_0001_0010_0000 = .instr (.ldReg 1 2) ∧ decode true 0b1000_0001_0010_0001 = .instr (.orReg 1 2) ∧
    decode true 0b1000_0001_0010_0010 = .instr (.andReg 1 2) ∧ decode true 0b1000_0001_0010_0011 = .instr (.xorReg 1 2) ∧
    decode true 0b1000_0001_0010_0100 = .instr (.addReg 1 2) := by decide

theorem test_decode_alu_high :
    decode true 0b1000_0001_0010_0101 = .instr (.sub 1 2) ∧ decode true 0b1000_0001_0010_0110 = .instr (.shr 1 2) ∧
    decode true 0b1000_0001_0010_0111 = .instr (.subn 1 2) ∧ decode true 0b1000_0001_0010_1110 = .instr (.shl 1 2) := by
  decide

theorem test_decode_keypad_and_timers :
    decode true 0b1110_0001_1001_1110 = .instr (.skp 1) ∧ decode true 0b1110_0001_1010_0001 = .instr (.sknp 1) ∧
    decode true 0b1111_0011_0000_0111 = .instr (.ldFromDt 3) ∧ decode true 0b1111_0100_0000_1010 = .instr (.ldKey 4) ∧
    decode true 0b1111_0010_0001_0101 = .instr (.ldToDt 2) ∧ decode true 0b1111_0010_0001_1000 = .instr (.ldToSt 2) := by
  decide

theorem test_decode_index_and_memory :
    decode true 0b1111_0101_0001_1110 = .instr (.addI 5) ∧ decode true 0b1111_0000_0010_1001 = .instr (.ldFont 0) ∧
    decode true 0b1111_0011_0011_0011 = .instr (.ldBcd 3) ∧ decode true 0b1111_1111_0101_0101 = .instr (.storeRegs 15) ∧
    decode true 0b1111_0100_0110_0101 = .instr (.loadRegs 4) := by decide

/-- Vectors E6 to E11. -/
theorem test_decode_unrecognized :
    decode true 0x0123 = .unrecognized .family0 ∧ decode true 0x01E0 = .unrecognized .family0 ∧
    decode true 0x5121 = .unrecognized .family5 ∧ decode true 0x8128 = .unrecognized .family8 ∧
    decode true 0x812F = .unrecognized .family8 ∧ decode true 0xE19F = .unrecognized .familyE ∧
    decode true 0xF130 = .unrecognized .familyF ∧ decode true 0x0000 = .unrecognized .family0 := by decide

/-- Vectors E7 and E8 with DISPATCH_STRICT = false. -/
theorem test_decode_not_strict : decode false 0x01E0 = .instr .cls ∧ decode false 0x5121 = .instr (.seReg 1 2) := by decide

/-- A table word is laid out big-endian: bits 15:8 come first in memory (20_memory.md R52). -/
theorem test_decodeTableWord :
    decodeTableWord 16 0x1234 = some (.jp 0x234) ∧ decodeTableWord 16 0x0123 = none ∧ highByte 0x1234 = 0x12 := by decide

/-! ## One step of each instruction -/

/-- What a step or an execute phase answers, if that is a next state. -/
def nextOf (o : Host.Outcome State Fault Refusal) : Option State :=
  match o with
  | .next t => some t
  | .fault _ => none
  | .refused _ => none

/-- The state after running the word `w` as the next step of `s`, if that is a next state. -/
def ran (s : State) (w : Nat) : Option State := nextOf (step (s.withFetchWord 16 w))

/-- A state in the middle of a batch, about to fetch at 0x300, with two registers set. -/
def two (x : Reg) (a : Byte) (y : Reg) (b : Byte) : State :=
  ({ State.reset with pc := 0x300, phase := .batch 3 }.setReg x a).setReg y b

/-- The keypad with the listed keys pressed. -/
def pressed (ks : List Reg) : Keypad := Vector.ofFn (fun k => decide (k ∈ ks))

/-- The same parameters with another call-stack size, overflow policy, font policy and key policy. -/
def otherConfig : Config :=
  { Config.default with
    iOverflow := .clamp12, fontWrite := .allow, quirkShiftVy := true, quirkLogicVfReset := true, keyIndex := .mask4 }

/-- `s` under the other parameters. -/
def other (s : State) : State := { s with cfg := otherConfig }

/-- Vector T6. -/
theorem test_ret : (ran { (two 0 0 1 0) with sp := 1, slots := (0x206 : Word) :: List.replicate 15 0 } 0x00EE).map
    (fun t => (t.pc, t.sp, t.slots[0]?)) = some (0x206, 0, some 0x206) := by decide

/-- Vector T7. -/
theorem test_ret_underflow : (ran (two 0 0 1 0) 0x00EE).map
    (fun t => (t.pc, t.rs, t.fault, t.faultPc, t.faultInfo)) = some (0x302, .faulted, .stackUnderflow, 0x300, 0) := by decide

/-- Vectors T1 and T2. -/
theorem test_jp : (ran (two 0 0 1 0) 0x1300).map (·.pc) = some 0x300 ∧ (ran (two 0 0 1 0) 0x1FFF).map (·.pc) = some 0xFFF := by
  decide

/-- Vector T3. -/
theorem test_call : (ran { (two 0 0 1 0) with pc := 0x204 } 0x2210).map
    (fun t => (t.pc, t.sp, t.slots[0]?)) = some (0x210, 1, some 0x206) := by decide

/-- Vector T4. -/
theorem test_call_overflow : (ran { (two 0 0 1 0) with sp := 16 } 0x2210).map
    (fun t => (t.pc, t.sp, t.fault, t.faultPc, t.faultInfo)) = some (0x302, 16, .stackOverflow, 0x300, 16) := by decide

/-- Vectors T8 and T10. -/
theorem test_seImm : (ran (two 3 0x42 1 0) 0x3342).map (·.pc) = some 0x304 ∧
    (ran (two 15 1 1 0) 0x3F01).map (·.pc) = some 0x304 ∧ (ran (two 3 0x41 1 0) 0x3342).map (·.pc) = some 0x302 := by decide

/-- Vector T9 and the example of R106. -/
theorem test_sneImm : (ran (two 3 0x42 1 0) 0x4342).map (·.pc) = some 0x302 ∧
    (ran (two 3 0x41 1 0) 0x4342).map (·.pc) = some 0x304 := by decide

/-- Vector T11 and the example of R107. -/
theorem test_seReg : (ran (two 1 7 2 8) 0x5110).map (·.pc) = some 0x304 ∧ (ran (two 1 7 2 8) 0x5120).map (·.pc) = some 0x302 := by
  decide

/-- Vectors T12 and T13. -/
theorem test_sneReg : (ran (two 1 7 2 8) 0x9110).map (·.pc) = some 0x302 ∧
    (ran { (two 1 7 2 8) with i := 0x123 } 0x9120).map (fun t => (t.pc, t.i)) = some (0x304, 0x123) := by decide

/-- Vectors T14 and T15. -/
theorem test_jpV0 : (ran (two 0 0x10 1 0) 0xB300).map (·.pc) = some 0x310 ∧
    (ran (two 0 0xFF 1 0) 0xBFFF).map (·.pc) = some 0x10FE := by decide

/-- Vectors A1 and A2. -/
theorem test_ldImm : (ran (two 0 0 1 0) 0x6A7B).map (·.reg 10) = some 0x7B ∧ (ran (two 0 0 1 0) 0x6F05).map (·.reg VF) = some 5 := by
  decide

/-- Vectors A3 and A5. -/
theorem test_addImm : (ran (two 0 0xFF 15 0x77) 0x7001).map (fun t => (t.reg 0, t.reg VF)) = some (0, 0x77) ∧
    (ran (two 0 0 15 0xFF) 0x7F01).map (·.reg VF) = some 0 := by decide

/-- Vector A6. -/
theorem test_ldReg : (ran (two 1 0 2 0x11) 0x8120).map (fun t => (t.reg 1, t.reg 2)) = some (0x11, 0x11) := by decide

/-- Vector A7, with and without the quirk. -/
theorem test_orReg : (ran ((two 1 0x0F 2 0xF0).setReg VF 5) 0x8121).map (fun t => (t.reg 1, t.reg VF)) = some (0xFF, 5) ∧
    (ran (other ((two 1 0x0F 2 0xF0).setReg VF 5)) 0x8121).map (fun t => (t.reg 1, t.reg VF)) = some (0xFF, 0) := by decide

/-- Vector A8. -/
theorem test_andReg : (ran (two 1 0x3C 2 0x0F) 0x8122).map (·.reg 1) = some 0x0C := by decide

/-- Vectors A9 and A10. -/
theorem test_xorReg : (ran (two 1 0x3C 2 0x0F) 0x8123).map (·.reg 1) = some 0x33 ∧
    (ran (two 1 0x5A 2 0) 0x8113).map (·.reg 1) = some 0 := by decide

/-- Vector W4. -/
theorem test_addReg : (ran (two 1 250 2 10) 0x8124).map (fun t => (t.reg 1, t.reg VF)) = some (4, 1) ∧
    (ran (two 1 1 2 1) 0x8124).map (fun t => (t.reg 1, t.reg VF)) = some (2, 0) := by decide

/-- Vectors A14 and A15: VF as a source, and as the destination. -/
theorem test_addReg_vf : (ran (two 1 0x80 15 0x80) 0x8F14).map (·.reg VF) = some 1 ∧
    (ran (two 1 0x10 15 1) 0x81F4).map (fun t => (t.reg 1, t.reg VF)) = some (0x11, 0) := by decide

/-- Vector W5. -/
theorem test_sub : (ran (two 1 5 2 10) 0x8125).map (fun t => (t.reg 1, t.reg VF)) = some (251, 0) ∧
    (ran (two 1 10 2 5) 0x8125).map (fun t => (t.reg 1, t.reg VF)) = some (5, 1) := by decide

/-- Vector A16: equal operands borrow nothing. -/
theorem test_sub_equal : (ran (two 1 7 2 7) 0x8125).map (fun t => (t.reg 1, t.reg VF)) = some (0, 1) := by decide

/-- Vectors A18 and A19. -/
theorem test_subn : (ran (two 1 5 2 10) 0x8127).map (fun t => (t.reg 1, t.reg VF)) = some (5, 1) ∧
    (ran (two 1 10 2 5) 0x8127).map (fun t => (t.reg 1, t.reg VF)) = some (0xFB, 0) := by decide

/-- Vector A20, with and without the quirk. -/
theorem test_shr : (ran (two 1 3 2 0x80) 0x8126).map (fun t => (t.reg 1, t.reg VF)) = some (1, 1) ∧
    (ran (other (two 1 3 2 0x80)) 0x8126).map (fun t => (t.reg 1, t.reg VF)) = some (0x40, 0) := by decide

/-- Vector A22. -/
theorem test_shr_vf : (ran (two 1 0 15 3) 0x8F06).map (·.reg VF) = some 1 := by decide

/-- Vector A24, with and without the quirk. -/
theorem test_shl : (ran (two 1 0x7F 2 0x81) 0x812E).map (fun t => (t.reg 1, t.reg VF)) = some (0xFE, 0) ∧
    (ran (other (two 1 0x7F 2 0x81)) 0x812E).map (fun t => (t.reg 1, t.reg VF)) = some (2, 1) := by decide

/-- Vectors A25 and A26. -/
theorem test_rnd : (ran { (two 3 0 1 0) with rnd := [0xA5, 0x11] } 0xC30F).map (fun t => (t.reg 3, t.rnd)) = some (5, [0x11]) ∧
    (ran { (two 3 9 1 0) with rnd := [0xA5] } 0xC300).map (·.reg 3) = some 0 := by decide

/-- Vector D1. -/
theorem test_cls : (ran { (two 15 0x33 1 0) with display := Display.clear.flip 31 63 } 0x00E0).map
    (fun t => (t.display.cell 31 63, t.reg VF, t.pc)) = some (false, 0x33, 0x302) := by decide

/-- Vector D2: only the anchor wraps. -/
theorem test_drw_anchor : (ran ({ (two 0 70 1 0) with i := 0x400 }.writeByte 0x400 0x80) 0xD011).map
    (fun t => (t.display.cell 0 6, t.display.cell 0 7, t.reg VF)) = some (true, false, 0) := by decide

/-- Vectors D7 and D5: a collision, and a sprite that runs past 0xFFF. -/
theorem test_drw_collision_and_fault :
    (ran ({ (two 0 0 1 0) with i := 0x400, display := Display.clear.flip 0 0 }.writeByte 0x400 0x80) 0xD011).map
      (fun t => (t.display.cell 0 0, t.reg VF)) = some (false, 1) ∧
    (ran { (two 0 0 15 0x33) with i := 0xFFF } 0xD012).map
      (fun t => (t.fault, t.faultInfo, t.reg VF)) = some (.memoryFault, 0x1000, 0x33) := by decide

/-- The example of R191 and vector K1. -/
theorem test_skp : (ran { (two 1 5 2 0) with keys := pressed [5] } 0xE19E).map (·.pc) = some 0x304 ∧
    (ran (two 1 5 2 0) 0xE19E).map (·.pc) = some 0x302 := by decide

/-- Vector K3. -/
theorem test_skp_index : (ran (two 1 0x10 2 0) 0xE19E).map (fun t => (t.fault, t.faultInfo, t.pc)) =
      some (.keyIndexFault, 0x10, 0x302) ∧
    (ran (other { (two 1 0x10 2 0) with keys := pressed [0] }) 0xE19E).map (·.pc) = some 0x304 := by decide

/-- Vectors K2 and W11. -/
theorem test_sknp : (ran (two 1 5 2 0) 0xE1A1).map (·.pc) = some 0x304 ∧
    (ran { (two 1 5 2 0) with keys := pressed [5] } 0xE1A1).map (·.pc) = some 0x302 := by decide

/-- Vector K4. -/
theorem test_ldFromDt : (ran { (two 3 0 1 0) with dt := 0x3C } 0xF307).map (·.reg 3) = some 0x3C := by decide

/-- Vectors K8 and K10. -/
theorem test_ldKey : (ran { (two 4 0 1 0) with keys := pressed [3, 7, 12] } 0xF40A).map (fun t => (t.reg 4, t.pc)) = some (3, 0x302) ∧
    (ran { (two 4 0 1 0) with keys := pressed [15] } 0xFF0A).map (·.reg VF) = some 15 := by decide

/-- Vector K9. -/
theorem test_ldKey_waits : (ran (two 4 9 1 0) 0xF40A).map (fun t => (t.reg 4, t.pc)) = some (9, 0x300) := by decide

/-- Vector K5. -/
theorem test_ldToDt : (ran (two 2 0x3C 1 0) 0xF215).map (fun t => (t.dt, t.st)) = some (0x3C, 0) := by decide

/-- Vectors K6 and K7. -/
theorem test_ldToSt : (ran (two 2 1 1 0) 0xF218).map (fun t => (t.st, t.soundActive)) = some (1, true) ∧
    (ran { (two 2 0 1 0) with st := 9 } 0xF218).map (fun t => (t.st, t.soundActive)) = some (0, false) := by decide

/-- Vector M1. -/
theorem test_ldI : (ran (two 0 0 1 0) 0xA300).map (·.i) = some 0x300 := by decide

/-- Vectors M3 and M4, both policies. -/
theorem test_addI : (ran { (two 5 1 1 0) with i := 0xFFF } 0xF51E).map (·.i) = some 0 ∧
    (ran (other { (two 5 0xFF 1 0) with i := 0xFF0 }) 0xF51E).map (·.i) = some 0xFFF := by decide

/-- Vectors M5 and M7. -/
theorem test_ldFont : (ran (two 0 7 1 0) 0xF029).map (·.i) = some 0x023 ∧ (ran (two 0 0xFF 1 0) 0xF029).map (·.i) = some 0x4FB := by
  decide

/-- Vector W6. -/
theorem test_ldBcd : (ran { (two 3 205 1 0) with i := 0x400 } 0xF333).map
    (fun t => (t.readByte 0x400, t.readByte 0x401, t.readByte 0x402, t.i)) = some (2, 0, 5, 0x400) := by decide

/-- Vectors M10 and M11. -/
theorem test_ldBcd_faults : (ran { (two 3 0x7B 1 0) with i := 0xFFE } 0xF333).map
      (fun t => (t.fault, t.faultInfo, t.readByte 0xFFE)) = some (.memoryFault, 0x1000, 0) ∧
    (ran { (two 3 0x7B 1 0) with i := 0x04E } 0xF333).map (fun t => (t.fault, t.faultInfo)) = some (.memoryFault, 0x04E) := by
  decide

/-- Vector W7, the store. -/
theorem test_storeRegs : (ran { (((two 0 1 1 2).setReg 2 3).setReg 3 4) with i := 0x400 } 0xF355).map
    (fun t => (t.readByte 0x400, t.readByte 0x403, t.readByte 0x404, t.i)) = some (1, 4, 0, 0x400) := by decide

/-- Vector M13. -/
theorem test_storeRegs_fault : (ran { (two 0 1 1 2) with i := 0xFF1 } 0xFF55).map
    (fun t => (t.fault, t.faultInfo, t.readByte 0xFF1)) = some (.memoryFault, 0x1000, 0) := by decide

/-- Vectors M14 (the second byte of the default font's glyph 0) and M15. -/
theorem test_loadRegs : (ran { (two 0 0 5 0x99) with i := 0 } 0xF465).map (fun t => (t.reg 1, t.reg 5, t.i)) = some (0x90, 0x99, 0) := by
  decide

/-- Vector M16. -/
theorem test_loadRegs_fault : (ran { (two 0 1 1 2) with i := 0xFFF } 0xF165).map
    (fun t => (t.fault, t.faultInfo, t.reg 0, t.reg 1)) = some (.memoryFault, 0x1000, 1, 2) := by decide

/-- Vectors E2 and E6: the highest fetch, and an unrecognized opcode. -/
theorem test_fetch : (ran { (two 0 0 1 0) with pc := 0xFFE } 0x6A7B).map (fun t => (t.reg 10, t.pc)) = some (0x7B, 0x1000) ∧
    (ran (two 0 0 1 0) 0x0123).map (·.pc) = some 0x302 := by decide

/-- Vectors E3 and E4. -/
theorem test_fetch_fault : (nextOf (step { (two 0 0 1 0) with pc := 0x1000 })).map
      (fun t => (t.pc, t.fault, t.faultPc, t.faultInfo, t.rs)) = some (0x1000, .decodeFault, 0x1000, 0x1000, .faulted) ∧
    (nextOf (step { (two 0 0 1 0) with pc := 0xFFF })).map (·.faultInfo) = some 0xFFF := by decide

/-! ## Frames and reset -/

/-- A poll of no key. -/
def poll (toggles : Nat) (quit : Bool) : Poll := ⟨pressed [], toggles, quit⟩

/-- Vectors S3 and S5. -/
theorem test_poll_pause : (nextOf (step { State.reset with dt := 5, polls := [poll 1 false] })).map
      (fun t => (t.rs, t.dt, t.phase)) = some (.paused, 5, .poll) ∧
    (nextOf (step { State.reset with polls := [poll 2 false] })).map (fun t => (t.rs, t.phase)) = some (.running, .batch 11) := by
  decide

/-- Vectors S4 and S6. -/
theorem test_poll_resume_and_quit :
    (nextOf (step { State.reset with rs := .paused, polls := [poll 1 false] })).map (fun t => (t.rs, t.phase)) =
      some (.running, .batch 11) ∧
    (nextOf (step { State.reset with rs := .paused, polls := [poll 1 true] })).map (·.rs) = some .quit := by decide

/-- Vectors K11, K12 and W9. -/
theorem test_frame_end : (nextOf (step { State.reset with phase := .batch 0, dt := 2, st := 1 })).map
      (fun t => (t.dt, t.st, t.phase, t.renders)) = some (1, 0, .poll, 1) ∧
    (nextOf (step { State.reset with phase := .batch 0 })).map (fun t => (t.dt, t.st)) = some (0, 0) := by decide

/-- Vector S1 for a two-byte image. -/
theorem test_boot : (nextOf (boot Config.default ⟨true, some [0x12, 0x34]⟩)).map
    (fun t => (t.pc, t.readByte 0x200, t.readByte 0x201, t.readByte 0x202, t.readByte 0x000)) =
      some (0x200, 0x12, 0x34, 0, 0xF0) := by decide

/-- Vector S2 and the empty image of R273, which is reset itself. -/
theorem test_boot_bounds : nextOf (boot Config.default ⟨true, some []⟩) = some State.reset ∧
    nextOf (boot Config.default ⟨true, some (List.replicate 3585 0)⟩) = none := by decide +kernel

/-! ## Witnesses: states and operands that meet the hypotheses of each obligation, at the bounds of each clause -/

/-- A reachable kind of state: inside a batch, before the fetch at 0x300. -/
def mid : State := two 0 0 1 0

/-- A call stack with `n` entries in use. -/
def nested (n : Nat) : State := { mid with sp := n, slots := List.replicate 16 (0x206 : Word) }

theorem witness_DecodeInvertsEncode :
    (Instr.jp 0xFFF).WellFormed ∧ (Instr.drw 15 15 15).WellFormed ∧ (Instr.loadRegs 15).WellFormed := by decide

theorem witness_EncodeInvertsDecode : decode true 0xFF65 = .instr (.loadRegs 15) := by decide

theorem witness_OpcodeTableDecides : ∃ r ∈ opcodeRows, r.Matches 0xFF65 := by decide

theorem witness_UnrecognizedMatchesNoRow :
    (∀ r ∈ opcodeRows, ¬ r.Matches 0x0000) ∧ ¬ (∀ r ∈ opcodeRows, ¬ r.Matches 0x00E0) := by decide

theorem witness_SecondLevelDispatch :
    (fieldCategory 0x812E = 0x8 ∧ fieldN 0x812E = 0xE) ∧
    (fieldCategory 0x812F = 0x8 ∧ fieldN 0x812F ∈ [0x8, 0x9, 0xA, 0xB, 0xC, 0xD, 0xF]) ∧
    (fieldCategory 0xE1A1 = 0xE ∧ fieldNN 0xE1A1 = 0xA1) ∧ (fieldCategory 0xE19F = 0xE ∧ fieldNN 0xE19F ∉ [0x9E, 0xA1]) ∧
    (fieldCategory 0xF165 = 0xF ∧ fieldNN 0xF165 = 0x65) ∧
    (fieldCategory 0xF1FF = 0xF ∧ fieldNN 0xF1FF ∉ [0x07, 0x0A, 0x15, 0x18, 0x1E, 0x29, 0x33, 0x55, 0x65]) ∧
    fieldCategory 0xDFFF ∈ [0x1, 0x2, 0x3, 0x4, 0x6, 0x7, 0xA, 0xB, 0xC, 0xD] := by decide

theorem witness_DispatchStrictSelects :
    (fieldCategory 0x01E0 = 0x0 ∧ (0x01E0 : Word) ≠ 0x00E0 ∧ (0x01E0 : Word) ≠ 0x00EE) ∧
    (fieldCategory 0x00EF = 0x0 ∧ fieldNN 0x00EF ≠ 0xE0 ∧ fieldNN 0x00EF ≠ 0xEE) ∧ (fieldCategory 0x5121 = 0x5 ∧ fieldN 0x5121 ≠ 0) ∧ (fieldCategory 0x5120 = 0x5 ∧ fieldN 0x5120 = 0) ∧
    (fieldCategory 0x9121 = 0x9 ∧ fieldN 0x9121 ≠ 0) ∧ (fieldCategory 0x9120 = 0x9 ∧ fieldN 0x9120 = 0) ∧
    fieldCategory 0xFFFF ∉ [0x0, 0x5, 0x9] := by decide

/-- `LD VA, 0x7B` at the highest address that can be fetched. -/
def atTop : State := ({ mid with pc := 0xFFE }.writeByte 0xFFE 0x6A).writeByte 0xFFF 0x7B

theorem witness_StepRunsDecodedInstruction :
    atTop.rs = .running ∧ atTop.phase = .batch (2 + 1) ∧ atTop.pc.toNat < 0xFFF ∧
    decodeBytes atTop.cfg.dispatchStrict (atTop.readByte atTop.pc.toNat) (atTop.readByte (atTop.pc.toNat + 1)) =
      .instr (.ldImm 10 0x7B) := by decide

theorem witness_FetchIsBigEndianAndBounded :
    ({ mid with pc := 0xFFF } : State).rs = .running ∧ ({ mid with pc := 0xFFF } : State).phase = .batch (2 + 1) ∧
    0xFFF ≤ ({ mid with pc := 0xFFF } : State).pc.toNat ∧
    atTop.rs = .running ∧ atTop.phase = .batch (2 + 1) ∧ atTop.pc.toNat < 0xFFF ∧ atTop.fault = .none ∧
    (nextOf (step atTop)).isSome = true := by decide

theorem witness_UnrecognizedOnlyAdvancesPc :
    ({ mid with pc := 0xFFE } : State).rs = .running ∧ ({ mid with pc := 0xFFE } : State).phase = .batch (2 + 1) ∧
    ({ mid with pc := 0xFFE } : State).pc.toNat < 0xFFF ∧
    decode ({ mid with pc := 0xFFE } : State).cfg.dispatchStrict ({ mid with pc := 0xFFE } : State).fetchWord =
      .unrecognized .family0 := by decide

/-- The run state after the execute phase, where it goes on. -/
def rsAfter (i : Instr) (s : State) : Option RunState := (nextOf (exec i s)).map (·.rs)

theorem witness_PcAfterEachInstruction :
    rsAfter (.jp 0xFFF) mid = some .running ∧ rsAfter (.call 0x210) (nested 15) = some .running ∧
    rsAfter (.jpV0 0xFFF) (two 0 0xFF 1 0) = some .running ∧ rsAfter .ret (nested 1) = some .running ∧
    rsAfter (.ldKey 0) mid = some .running ∧ rsAfter (.ldKey 0) { mid with keys := pressed [15] } = some .running ∧
    rsAfter (.seImm 0 0) mid = some .running ∧ rsAfter (.sknp 0) mid = some .running ∧
    rsAfter (.sub 1 2) mid = some .running := by decide

theorem witness_LogicWritesVxAndQuirkClearsVf :
    mid.cfg.quirkLogicVfReset = false ∧ (other mid).cfg.quirkLogicVfReset = true ∧ (1 : Reg) ≠ VF := by decide

theorem witness_AddSetsCarry : (1 : Reg) ≠ VF ∧ ((two 1 0xFF 2 1).reg 1).toNat + ((two 1 0xFF 2 1).reg 2).toNat = 256 ∧
    ((two 1 0x80 2 0x7F).reg 1).toNat + ((two 1 0x80 2 0x7F).reg 2).toNat = 255 := by decide

theorem witness_SubtractSetsNoBorrow : (1 : Reg) ≠ VF ∧ ((two 1 7 2 7).reg 1).toNat ≥ ((two 1 7 2 7).reg 2).toNat ∧
    ¬ ((two 1 0 2 1).reg 1).toNat ≥ ((two 1 0 2 1).reg 2).toNat := by decide

theorem witness_ShiftsSetBitShiftedOut : (1 : Reg) ≠ VF ∧ mid.cfg.quirkShiftVy = false ∧ (other mid).cfg.quirkShiftVy = true := by decide

theorem witness_RandomByteUnderMask : ({ mid with rnd := [0xA5] } : State).rnd = (0xA5 : Byte) :: [] ∧ mid.rnd = [] := by decide

theorem witness_JumpsSetPc : (0xFFF : Word).toNat < 0x1000 := by decide

theorem witness_CallPushesReturnAddress :
    (nested 15).slots.length = (nested 15).cfg.stackDepth ∧ (nested 15).sp < 65536 ∧ (nested 15).sp < (nested 15).cfg.stackDepth ∧
    (nested 16).slots.length = (nested 16).cfg.stackDepth ∧ (nested 16).sp < 65536 ∧ (nested 16).cfg.stackDepth ≤ (nested 16).sp := by
  decide

theorem witness_ReturnPopsIntoPc : ((nested 16).sp ≤ (nested 16).slots.length ∧ 0 < (nested 16).sp) ∧
    ((nested 1).sp ≤ (nested 1).slots.length ∧ 0 < (nested 1).sp) ∧ ((nested 0).sp ≤ (nested 0).slots.length ∧ (nested 0).sp = 0) := by
  decide

theorem witness_CallThenReturnComesBack :
    (nested 15).slots.length = (nested 15).cfg.stackDepth ∧ (nested 15).sp < (nested 15).cfg.stackDepth := by decide

theorem witness_CallsNestToStackDepth : (nested 0).sp = 0 ∧ (nested 0).slots.length = (nested 0).cfg.stackDepth ∧
    (nested 0).cfg.stackDepth < 65536 ∧ (List.replicate 16 (0x300 : Word)).length ≤ (nested 0).cfg.stackDepth ∧
    (List.replicate 16 (0x300 : Word)).length = (nested 0).cfg.stackDepth := by decide

/-- `mid` with another value in I. -/
def withI (i : Word) : State := { mid with i := i }

theorem witness_DrawFlipsSpritePixels :
    min 0 (32 - (mid.reg 1).toNat % 32) = 0 ∧
    (withI 0xFF1).base + min 15 (32 - ((withI 0xFF1).reg 1).toNat % 32) ≤ 0x1000 ∧
    0 < min 15 (32 - ((withI 0xFF2).reg 1).toNat % 32) ∧
    0x1000 < (withI 0xFF2).base + min 15 (32 - ((withI 0xFF2).reg 1).toNat % 32) := by decide

theorem witness_DrawClipsAndZeroRowsClearVf : 32 - ((two 0 0 1 31).reg 1).toNat % 32 ≤ 1 := by decide

theorem witness_DrawTwiceRestoresDisplay : (0 : Reg) ≠ VF ∧ (1 : Reg) ≠ VF ∧
    (withI 0xFF1).base + min 15 (32 - ((withI 0xFF1).reg 1).toNat % 32) ≤ 0x1000 := by decide

theorem witness_DisplayIsRowMajor : 31 < 32 ∧ 63 < 64 := by decide

theorem witness_KeySkips : ((two 1 0xF 2 0).reg 1).toNat = (15 : Reg).val ∧ ((two 1 0 2 0).reg 1).toNat = (0 : Reg).val ∧
    0xF < ((two 1 0x10 2 0).reg 1).toNat ∧ (two 1 0x10 2 0).cfg.keyIndex = .fault := by decide

theorem witness_KeySkipsUnderMask4 :
    (other (two 1 0xFF 2 0)).cfg.keyIndex = .mask4 ∧ ((other (two 1 0xFF 2 0)).reg 1).toNat % 16 = (15 : Reg).val := by decide

theorem witness_KeyWaitTakesLowestKey :
    ((pressed [15])[(15 : Reg)] = true ∧ ∀ j : Reg, j < 15 → (pressed [15])[j] = false) ∧ ∀ k : Reg, mid.keys[k] = false := by decide

/-- `LD V4, K` at 0x300. -/
def waiting : State := (mid.writeByte 0x300 0xF4).writeByte 0x301 0x0A

theorem witness_KeyWaitHoldsTheBatch : waiting.rs = .running ∧ waiting.phase = .batch 3 ∧ waiting.pc.toNat < 0xFFF ∧
    decode waiting.cfg.dispatchStrict waiting.fetchWord = .instr (.ldKey 4) ∧ ∀ k : Reg, waiting.keys[k] = false := by decide

theorem witness_IndexRegisterWrites : mid.cfg.iOverflow = .wrap12 ∧ (other mid).cfg.iOverflow = .clamp12 := by decide

theorem witness_StoreDecimalDigits :
    ((withI 0xFFD).base + 2 ≤ 0xFFF ∧ 0x4F < (withI 0xFFD).base) ∧ ((withI 0x50).base + 2 ≤ 0xFFF ∧ 0x4F < (withI 0x50).base) ∧
    0xFFF < (withI 0xFFE).base + 2 ∧ ((withI 0x4F).base ≤ 0x4F ∧ (withI 0x4F).cfg.fontWrite = .fault) ∧
    ((other (withI 0)).base + 2 ≤ 0xFFF ∧ (other (withI 0)).cfg.fontWrite = .allow) := by decide

theorem witness_StoreRegisterRange :
    ((withI 0xFF0).base + (15 : Reg).val ≤ 0xFFF ∧ 0x4F < (withI 0xFF0).base) ∧
    ((withI 0x50).base + (0 : Reg).val ≤ 0xFFF ∧ 0x4F < (withI 0x50).base) ∧
    0xFFF < (withI 0xFF1).base + (15 : Reg).val ∧ ((withI 0x4F).base ≤ 0x4F ∧ (withI 0x4F).cfg.fontWrite = .fault) := by decide

theorem witness_LoadRegisterRange : (withI 0xFF0).base + (15 : Reg).val ≤ 0xFFF ∧ 0xFFF < (withI 0xFF1).base + (15 : Reg).val := by
  decide

theorem witness_StoreThenLoadGivesBack :
    (withI 0xFF0).base + (15 : Reg).val ≤ 0xFFF ∧ ((withI 0xFF0).cfg.fontWrite = .fault → 0x4F < (withI 0xFF0).base) ∧
    (14 : Reg) < 15 := by decide

theorem witness_FetchSeesStoredRegisters : (14 : Reg).val + 1 < 16 ∧ rsAfter (.storeRegs 15) (withI 0xFF0) = some .running ∧
    (14 : Reg) < 15 := by decide

theorem witness_NoStepWritesTheFont : waiting.cfg.fontWrite = .fault ∧ (nextOf (step waiting)).isSome = true ∧ 0x4F ≤ 0x4F := by decide

/-- The fault code after the execute phase, where it goes on. -/
def faultAfter (i : Instr) (s : State) : Option FaultCode := (nextOf (exec i s)).map (·.fault)

theorem witness_ExecuteFaultsArePrecise : faultAfter .ret mid = some .stackUnderflow ∧ mid.fault = .none := by decide

theorem witness_EachInstructionRaisesItsOwnFault : mid.fault = .none ∧ (nested 16).fault = .none ∧
    faultAfter .ret mid = some .stackUnderflow ∧ faultAfter (.call 0) (nested 16) = some .stackOverflow ∧
    faultAfter (.skp 1) (two 1 0x10 2 0) = some .keyIndexFault ∧ faultAfter (.sknp 1) (two 1 0xFF 2 0) = some .keyIndexFault ∧
    faultAfter (.drw 0 1 2) (withI 0xFFF) = some .memoryFault ∧ faultAfter (.ldBcd 0) (withI 0x4F) = some .memoryFault ∧
    faultAfter (.storeRegs 1) (withI 0xFFF) = some .memoryFault ∧ faultAfter (.loadRegs 1) (withI 0xFFF) = some .memoryFault := by
  decide

/-- `mid` and its like meet the invariant. -/
theorem mid_inv : mid.Inv where
  memWf := by decide
  fontIntact := by decide
  slotCount := by decide
  slotRange := fun w h => by
    have h0 : w = 0 := List.eq_of_mem_replicate (show w ∈ List.replicate 16 (0 : Word) from h)
    subst h0
    decide
  spRange := by decide
  iRange := by decide
  pcRange := by decide
  faultedIff := by decide
  faultClear := by decide
  slotsLeft := fun left h => by
    have h3 : Phase.batch 3 = Phase.batch left := h
    injection h3 with h3
    subst h3
    decide
  pausedAtPoll := by decide
  ipfPositive := by decide

theorem witness_NoInstructionStops : mid.Inv := mid_inv

theorem witness_OnlyNamedInstructionsTouchDevices :
    (nextOf (exec .cls { mid with display := Display.clear.flip 0 0 })).map (fun t => t.display.cell 0 0) = some false ∧
    (nextOf (exec (.ldToDt 0) (two 0 5 1 0))).map (·.dt) = some 5 ∧ mid.dt = 0 ∧
    (nextOf (exec (.ldToSt 0) (two 0 5 1 0))).map (fun t => (t.st, t.soundActive)) = some (5, true) ∧ mid.soundActive = false := by decide

/-- VF after the execute phase, where it goes on. -/
def vfAfter (i : Instr) (s : State) : Option Byte := (nextOf (exec i s)).map (·.reg VF)

theorem witness_OnlyFlagInstructionsWriteVf : mid.reg VF = 0 ∧ vfAfter (.addReg 1 2) (two 1 0xFF 2 1) = some 1 ∧
    ((two 15 7 1 0).reg VF = 7 ∧ vfAfter (.orReg 1 2) (other (two 15 7 1 0)) = some 0) ∧ vfAfter (.orReg 15 1) (two 1 7 2 0) = some 7 ∧
    vfAfter (.ldImm 15 9) mid = some 9 := by decide

theorem witness_InputsAreSeenOnlyByTheirInstructions :
    (∀ x, Instr.addImm 1 2 ≠ .skp x) ∧ (∀ x, Instr.addImm 1 2 ≠ .sknp x) ∧ (∀ x, Instr.addImm 1 2 ≠ .ldKey x) ∧
    (∀ x, Instr.ldToDt 1 ≠ .ldFromDt x) := by decide

theorem witness_PollMovesRunState : (poll 3 true).quit = true ∧ ((poll 2 false).quit = false ∧ (poll 2 false).pauseToggles % 2 = 0) ∧
    ((poll 3 false).quit = false ∧ (poll 3 false).pauseToggles % 2 = 1) := by decide

/-- Paused, with a poll queued. -/
def paused : State := { State.reset with rs := .paused, polls := [poll 1 false] }

theorem witness_FrameStartsWithPoll : paused.polls = [poll 1 false] ∧ paused.rs = .paused ∧ 1 ≤ paused.cfg.ips / 60 ∧
    State.reset.rs = .running ∧ State.reset.phase = .poll := by decide

theorem witness_PausedOnlyPolls : paused.rs = .paused ∧ (nextOf (step paused)).isSome = true ∧ paused.polls = [poll 1 false] := by decide

theorem witness_FrameEndRendersAndTicks : ({ mid with phase := .batch 0, dt := 1 } : State).rs = .running ∧
    ({ mid with phase := .batch 0, dt := 1 } : State).phase = .batch 0 := by decide

theorem witness_BatchRunsAllItsSlots : waiting.rs = .running ∧ waiting.phase = .batch 3 ∧ waiting.fault = .none ∧
    (nextOf (Sys2Proof.core.run 3 waiting)).map (fun t : State => t.fault) = some .none := by decide

/-- The batch of `waiting` writes no timer: the premises of the clauses on DT and ST. -/
theorem witness_BatchRunsAllItsSlots_timers : ∀ k (u : State), k < 3 → Sys2Proof.core.run k waiting = .next u →
    ∀ x, ¬ u.Decodes (.ldToDt x) ∧ ¬ u.Decodes (.ldToSt x) := by
  have all : ∀ k < 3, (nextOf (Sys2Proof.core.run k waiting)).all
      (fun u : State => decide (decode u.cfg.dispatchStrict u.fetchWord = .instr (.ldKey 4))) = true := by decide
  intro k u hk h x
  have hd : decode u.cfg.dispatchStrict u.fetchWord = .instr (.ldKey 4) := by
    have := all k hk
    rw [h] at this
    exact of_decide_eq_true this
  constructor <;> (rintro ⟨-, hx⟩; rw [hd] at hx; cases hx)

/-- A slot that writes DT, and one that writes no timer. -/
theorem witness_BatchRunsAllItsSlots_slot :
    (ran (two 2 0x3C 1 0) 0xF215).map (·.dt) = some 0x3C ∧ (two 2 0x3C 1 0).dt = 0 ∧
    ((two 2 0x3C 1 0).withFetchWord 16 0xF215).phase = .batch (2 + 1) ∧ (nextOf (step waiting)).map (·.dt) = some waiting.dt := by
  decide

theorem witness_RunStateChangesOnlyByPollOrFault : paused.fault = .none ∧ (nextOf (step paused)).map (·.rs) = some .running ∧
    mid.fault = .none ∧ (nextOf (step { mid with pc := 0xFFF })).map (·.rs) = some .faulted := by decide

theorem witness_QuitAndFaultedAreTerminal :
    ({ mid with rs := .quit } : State).rs = .quit ∧ (mid.raise .stackUnderflow 0).rs = .faulted := by decide

theorem witness_NoStepChangesConfiguration : (nextOf (step waiting)).isSome = true := by decide

theorem witness_ResetLoadsFontAndRom : (List.replicate 3584 (0 : Byte)).length ≤ 3584 ∧ 1 ≤ Config.default.ips / 60 := by
  rw [List.length_replicate]
  decide

theorem witness_BootRefusesBadLaunch : 3584 < (List.replicate 3585 (0 : Byte)).length ∧
    (List.replicate 3584 (0 : Byte)).length ≤ 3584 ∧ ({ Config.default with ips := 59 } : Config).ips / 60 = 0 := by
  rw [List.length_replicate, List.length_replicate]
  decide

theorem witness_BootMeetsInvariant : (nextOf (boot otherConfig ⟨true, some [0x12, 0x00]⟩)).isSome = true := by decide

theorem witness_StepKeepsInvariant : mid.Inv ∧ (nextOf (step mid)).map (·.pc) = some 0x302 := ⟨mid_inv, by decide⟩

theorem witness_StepAnswersNextState : mid.Inv := mid_inv

end Sys2Proof.Tests
end

section
/-! PROOFS. The parameters of 00_scope.md R8 are fixed: no action of the core writes them. -/

namespace Sys2Proof.Machine

/-- Neither way an execute phase can end writes the parameters: no footprint names them, and fault entry keeps them. -/
theorem exec_keeps_cfg {i : Instr} {s t : State} (h : exec i s = .next t) : t.cfg = s.cfg := by
  obtain ⟨info, -, rfl⟩ | hframe := exec_next h
  · exact State.raise_cfg s _ _
  · exact hframe.cfg

theorem pollStep_keeps_cfg {s t : State} (h : pollStep s = .next t) : t.cfg = s.cfg := by
  obtain ⟨-, -, rfl⟩ | ⟨-, rfl⟩ := pollStep_next h
  · exact State.polled_cfg s s.nextPoll
  · exact State.polled_cfg s s.nextPoll

/-- Settles O54, by the actions a step can be: a terminal state's own step, a poll, the end of a frame, or one
instruction slot with its three outcomes. -/
theorem noStepChangesConfiguration : Obligations.NoStepChangesConfiguration := by
  unfold Obligations.NoStepChangesConfiguration
  intro s t h
  obtain ⟨-, rfl⟩ | ⟨-, hpoll⟩ | ⟨-, -, rfl⟩ | ⟨left, -, -, hslot⟩ := step_next h
  · rfl
  · exact pollStep_keeps_cfg hpoll
  · calc s.render.tick.cfg = s.render.cfg := State.tick_cfg _
      _ = s.cfg := State.render_cfg s
  · obtain ⟨-, rfl⟩ | ⟨-, ⟨i, -, hexec⟩ | ⟨why, -, rfl⟩⟩ := hslot
    · exact State.enterFault_cfg s _ _ _
    · exact (exec_keeps_cfg hexec).trans (State.afterFetch_cfg s left)
    · exact State.afterFetch_cfg s left

end Sys2Proof.Machine
end

section
/-! PROOFS. The facts the proofs below share: the operands of a decoded word, the bounds of computed addresses, a fetch that
succeeds, the branches of RET and CALL, and what a run of stores leaves. -/

namespace Sys2Proof.Machine

/-! ### Bounds on operands, PC and I -/

/-- A decoded instruction has operands that fit its encoding: NNN and N are cut out of the word (30_encoding.md R74). -/
theorem decode_wellFormed {strict : Bool} {w : Word} {i : Instr} (h : decode strict w = .instr i) : i.WellFormed := by
  have hnnn : addressFits (fieldNNN w) = true := decide_eq_true (fieldNNN_lt w)
  have hn : rowCountFits (fieldN w) = true := decide_eq_true (fieldN_lt w)
  unfold decode at h
  split at h -- the cases h_1 to h_16 are the families 0x0 to 0xF
  case h_1 => simp only [decodeFamily0] at h; split_ifs at h <;> cases h <;> rfl
  case h_6 | h_10 => simp only [decodeXY0] at h; split_ifs at h; cases h; rfl
  case h_9 => simp only [decodeFamily8] at h; split at h <;> cases h <;> rfl
  case h_15 => simp only [decodeFamilyE] at h; split_ifs at h <;> cases h <;> rfl
  case h_16 => simp only [decodeFamilyF] at h; split_ifs at h <;> cases h <;> rfl
  case h_2 | h_3 | h_11 | h_12 => cases h; exact hnnn
  case h_14 => cases h; exact hn
  case h_4 | h_5 | h_7 | h_8 | h_13 => cases h; rfl

theorem addressFits_iff {nnn : Word} : addressFits nnn = true ↔ nnn.toNat < 0x1000 := decide_eq_true_iff

theorem indexValue_le (policy : IOverflow) (v : Nat) : (indexValue policy v).toNat ≤ 0xFFF := by
  cases policy <;> simp only [indexValue, BitVec.toNat_ofNat] <;> omega

/-- Five times a byte needs 11 bits. -/
theorem glyphAddress_le (b : Byte) : (glyphAddress b).toNat ≤ 0xFFF := by
  have hb := b.isLt
  rw [glyphAddress, BitVec.toNat_ofNat]
  exact (Nat.mod_le _ _).trans (by omega)

theorem State.fetchFails_eq_false {s : State} : s.fetchFails = false ↔ s.pc.toNat < 0xFFF := by
  simp [State.fetchFails, memSize]

/-! ### The stack's two instructions and the stores -/

/-- The branches of 00EE: with SP = 0 the fault, else a jump to the slot popped (40_control.md R102). -/
theorem execRet_next {s t : State} (h : execRet s = .next t) :
    t = s.raise .stackUnderflow 0 ∨ ∃ w, s.topSlot = some w ∧ t = s.pop.setPc w := by
  simp only [execRet] at h
  split at h
  · cases h; exact .inl rfl
  · split at h
    next w hw => cases h; exact .inr ⟨w, hw, rfl⟩
    next => cases h

/-- The branches of 2NNN: with the stack full the fault, else PC is pushed and becomes NNN (40_control.md R104). -/
theorem execCall_next {nnn : Word} {s t : State} (h : execCall nnn s = .next t) :
    (∃ info, t = s.raise .stackOverflow info) ∨ (s.sp < s.slots.length ∧ t = (s.push s.pc).setPc nnn) := by
  simp only [execCall] at h
  split at h
  · cases h; exact .inl ⟨_, rfl⟩
  · split at h
    next hsp => cases h; exact .inr ⟨hsp, rfl⟩
    next => cases h

/-- A run of stores writes Memory only. -/
theorem State.storeBytes_eq (s : State) (a : Nat) (bs : List Byte) :
    s.storeBytes a bs = { s with mem := (s.storeBytes a bs).mem } := by
  induction bs generalizing s a with
  | nil => rfl
  | cons b bs ih => exact ih (s.writeByte a b) (a + 1)

end Sys2Proof.Machine
end

section
/-! PROOFS. The invariant: every operation of the state keeps it, and so does every step. -/

namespace Sys2Proof.Machine

/-! ### Every operation keeps the invariant -/

namespace State.Inv

variable {s : State} (h : s.Inv)
include h

theorem setReg (x : Reg) (b : Byte) : (s.setReg x b).Inv := { h with }

theorem setRegs (vs : Vector Byte 16) : (s.setRegs vs).Inv := { h with }

theorem setDisplay (d : Display) : (s.setDisplay d).Inv := { h with }

theorem setDt (b : Byte) : (s.setDt b).Inv := { h with }

theorem setSt (b : Byte) : (s.setSt b).Inv := { h with }

theorem afterDraw : s.afterDraw.Inv := { h with }

theorem setRegThenFlag (x : Reg) (b : Byte) (c : Bool) : (s.setRegThenFlag x b c).Inv := { h with }

theorem setLogic (x : Reg) (b : Byte) : (s.setLogic x b).Inv := by
  unfold State.setLogic
  split
  · exact (h.setReg x b).setReg VF 0
  · exact h.setReg x b

theorem setPc {w : Word} (hw : w.toNat ≤ 0x10FE) : (s.setPc w).Inv := { h with pcRange := hw }

theorem setI {w : Word} (hw : w.toNat ≤ 0xFFF) : (s.setI w).Inv := { h with iRange := hw }

theorem skipIf (hpc : s.pc.toNat ≤ 0x1000) (c : Bool) : (s.skipIf c).Inv := by
  cases c
  · exact h
  · exact h.setPc (by bv_omega)

/-- A return address is pushed into one of the STACK_DEPTH slots, so SP stays within them (10_state.md R29). -/
theorem push {w : Word} (hw : w.toNat ≤ 0x1000) (hsp : s.sp < s.slots.length) : (s.push w).Inv :=
  { h with
    slotCount := List.length_set.trans h.slotCount
    slotRange := fun v hv => by
      obtain hold | rfl := List.mem_or_eq_of_mem_set hv
      · exact h.slotRange v hold
      · exact hw
    spRange := h.slotCount ▸ hsp }

theorem pop : s.pop.Inv := { h with spRange := (Nat.sub_le _ _).trans h.spRange }

/-- Fault entry records a fault and makes the core FAULTED, both or neither (60_exceptions.md R231). -/
theorem enterFault (c : FaultCode) (hc : c ≠ .none) (addr info : Word) : (s.enterFault c addr info).Inv :=
  { h with
    faultedIff := iff_of_true rfl hc
    faultClear := fun hnone => absurd hnone hc
    pausedAtPoll := nofun }

theorem raise (c : FaultCode) (hc : c ≠ .none) (info : Word) : (s.raise c info).Inv := h.enterFault c hc _ info

theorem raiseMemory (a : Nat) : (s.raiseMemory a).Inv := h.raise .memoryFault nofun _

/-- A run of stores inside Memory and, under `FONT_WRITE` = fault, past the font. -/
theorem storeBytes {a : Nat} {bs : List Byte} (hend : a + bs.length ≤ memSize)
    (hfont : s.cfg.fontWrite = .fault → fontLen ≤ a) : (s.storeBytes a bs).Inv := by
  have hmem : (s.storeBytes a bs).memWf := State.memWf_storeBytes h.memWf hend
  have hcells : s.cfg.fontWrite = .fault → ∀ c ∈ (s.storeBytes a bs).mem, fontLen ≤ c.1 := fun hf c hc =>
    (State.mem_storeBytes hc).elim (hfont hf).trans (h.fontIntact hf c)
  rw [State.memWf, State.storeBytes_cfg] at hmem
  rw [State.storeBytes_eq]
  exact { h with memWf := hmem, fontIntact := hcells }

/-- A run of stores that passes the address checks is inside Memory and past a font that may not be written (20_memory.md
R56, R57). -/
theorem checkedStore {bs : List Byte} (hok : firstBadWrite s.cfg.fontWrite s.base bs.length = none) :
    (s.storeBytes s.base bs).Inv := by
  obtain hempty | ⟨hend, hfont⟩ := firstBadWrite_eq_none.1 hok
  · rw [List.eq_nil_of_length_eq_zero hempty]
    exact h
  · exact h.storeBytes hend hfont

/-- The fetch of an instruction that could be fetched takes one slot of the batch and leaves PC at most 0x1000. -/
theorem afterFetch {left : Nat} (hrun : s.rs = .running) (hslot : s.phase = .batch (left + 1))
    (hpc : s.pc.toNat < 0xFFF) : (s.afterFetch left).Inv :=
  { h with
    pcRange := show (s.pc + 2).toNat ≤ 0x10FE by bv_omega
    slotsLeft := fun n hn => by
      cases hn
      exact (Nat.le_succ left).trans (h.slotsLeft _ hslot)
    pausedAtPoll := fun hp => by simp [hrun] at hp }

end State.Inv

/-! ### The execute phase keeps the invariant -/

/-- In the execute phase PC is a + 2 for an address a that could be fetched: BNNN's sum does not reach 0x10FF and FX0A's
difference does not pass 0. -/
theorem exec_keeps_inv {i : Instr} {s t : State} (hinv : s.Inv) (hwf : i.WellFormed) (hlo : 2 ≤ s.pc.toNat)
    (hhi : s.pc.toNat ≤ 0x1000) (h : exec i s = .next t) : t.Inv := by
  cases i <;> simp only [exec] at h
  case cls => cases h; exact hinv.setDisplay _
  case ldImm | addImm | ldReg | ldFromDt => cases h; exact hinv.setReg _ _
  case orReg | andReg | xorReg => cases h; exact hinv.setLogic _ _
  case addReg | sub | shr | subn | shl => cases h; exact hinv.setRegThenFlag _ _ _
  case rnd => cases h; exact hinv.afterDraw.setReg _ _
  case ldToDt => cases h; exact hinv.setDt _
  case ldToSt => cases h; exact hinv.setSt _
  case seImm | sneImm | seReg | sneReg => cases h; exact hinv.skipIf hhi _
  case ldI => cases h; exact hinv.setI (Nat.le_of_lt_succ (addressFits_iff.1 hwf))
  case addI => cases h; exact hinv.setI (indexValue_le _ _)
  case ldFont => cases h; exact hinv.setI (glyphAddress_le _)
  case jp nnn =>
    have hnnn := addressFits_iff.1 hwf
    cases h; exact hinv.setPc (by omega)
  case jpV0 nnn =>
    have hnnn := addressFits_iff.1 hwf
    have hoff := (s.reg V0).isLt
    cases h; exact hinv.setPc (by simp only [BitVec.toNat_add, BitVec.toNat_setWidth]; omega)
  case call nnn =>
    have hnnn := addressFits_iff.1 hwf
    obtain ⟨info, rfl⟩ | ⟨hsp, rfl⟩ := execCall_next h
    · exact hinv.raise .stackOverflow nofun _
    · exact (hinv.push hhi hsp).setPc (by omega)
  case ret =>
    obtain rfl | ⟨w, hw, rfl⟩ := execRet_next h
    · exact hinv.raise .stackUnderflow nofun _
    · have hret := hinv.slotRange w (List.mem_of_getElem? hw)
      exact hinv.pop.setPc (by omega)
  case ldKey =>
    simp only [execLdKey] at h
    split at h <;> cases h
    · exact hinv.setReg _ _
    · exact hinv.setPc (by bv_omega)
  case skp | sknp =>
    simp only [execSkp, execSknp] at h
    split at h <;> cases h
    · exact hinv.skipIf hhi _
    · exact hinv.raise .keyIndexFault nofun _
  case drw =>
    simp only [execDrw] at h
    split at h <;> cases h
    · exact hinv.raiseMemory _
    · exact (hinv.setDisplay _).setReg _ _
  case ldBcd =>
    simp only [execLdBcd] at h
    split at h
    · cases h; exact hinv.raiseMemory _
    next hok => cases h; exact hinv.checkedStore hok
  case storeRegs x =>
    simp only [execStoreRegs] at h
    split at h
    · cases h; exact hinv.raiseMemory _
    next hok => cases h; exact hinv.checkedStore (by rwa [regRange_length])
  case loadRegs =>
    simp only [execLoadRegs] at h
    split at h <;> cases h
    · exact hinv.raiseMemory _
    · exact hinv.setRegs _

/-! ### The actions of the scheduler keep the invariant -/

theorem RunState.applyToggles_eq_faulted {n : Nat} {r : RunState} : r.applyToggles n = .faulted ↔ r = .faulted := by
  induction n generalizing r with
  | zero => rfl
  | succ n ih => rw [RunState.applyToggles, ih]; cases r <;> decide

/-- A poll neither raises nor clears a fault (60_exceptions.md R243, R244). -/
theorem RunState.afterPoll_eq_faulted {p : Poll} {r : RunState} : r.afterPoll p = .faulted ↔ r = .faulted := by
  unfold RunState.afterPoll
  split
  · cases r <;> decide
  · exact RunState.applyToggles_eq_faulted

/-- Whatever a poll delivers, the state it leaves before the next poll or at the start of a batch keeps the invariant. -/
theorem pollStep_keeps_inv {s t : State} (hinv : s.Inv) (h : pollStep s = .next t) : t.Inv := by
  have hfaulted : s.rs.afterPoll s.nextPoll = .faulted ↔ s.fault ≠ .none :=
    RunState.afterPoll_eq_faulted.trans hinv.faultedIff
  obtain ⟨hrun, -, rfl⟩ | ⟨-, rfl⟩ := pollStep_next h
  · exact { hinv with
      faultedIff := hfaulted
      slotsLeft := fun n hn => by cases hn; exact Nat.le_refl _
      pausedAtPoll := fun hp => nomatch hrun.symm.trans hp }
  · exact { hinv with
      faultedIff := hfaulted
      slotsLeft := nofun
      pausedAtPoll := fun _ => rfl }

/-- The end of a frame hands the display over and ticks the timers, which the invariant does not bound. -/
theorem frameEnd_keeps_inv {s : State} (hinv : s.Inv) : ({ s.render.tick with phase := .poll } : State).Inv :=
  { hinv with
    slotsLeft := nofun
    pausedAtPoll := fun _ => rfl }

/-- Settles O59: each action of the scheduler keeps the invariant, and in an instruction slot the execute phase starts from
a state in it whose PC is in 2..0x1000, with an instruction that some word encodes. -/
theorem stepKeepsInvariant : Obligations.StepKeepsInvariant := by
  unfold Obligations.StepKeepsInvariant
  intro s t hinv h
  obtain ⟨-, rfl⟩ | ⟨-, hpoll⟩ | ⟨-, -, rfl⟩ | ⟨left, hrun, hslot, hcycle⟩ := step_next h
  · exact hinv
  · exact pollStep_keeps_inv hinv hpoll
  · exact frameEnd_keeps_inv hinv
  · obtain ⟨-, rfl⟩ | ⟨hfetch, hdecoded⟩ := hcycle
    · exact hinv.enterFault .decodeFault nofun _ _
    · have hpc := State.fetchFails_eq_false.1 hfetch
      have hfetched := hinv.afterFetch hrun hslot hpc
      obtain ⟨i, hi, hexec⟩ | ⟨why, -, rfl⟩ := hdecoded
      · have hpc' : (s.afterFetch left).pc.toNat = s.pc.toNat + 2 := by
          rw [State.afterFetch_pc]; bv_omega
        exact exec_keeps_inv hfetched (decode_wellFormed hi) (by omega) (by omega) hexec
      · exact hfetched

end Sys2Proof.Machine
end

section
/-! PROOFS. Reset with a ROM image (10_state.md R39, 70_reset_and_hazards.md R270), and that it meets the invariant. -/

namespace Sys2Proof.Machine

/-! ### The state after reset and the load of the image -/

/-- A launch that boots is one whose image fits, under parameters with IPF at least 1, and it boots to reset with that image
loaded. -/
theorem boot_eq_next {cfg : Config} {l : Launch} {s : State} :
    boot cfg l = .next s ↔ l.hostReady = true ∧
      ∃ rom, l.rom = some rom ∧ rom.length ≤ maxRom ∧ 1 ≤ cfg.ipf ∧ s = (State.resetWith cfg).loadRom rom := by
  obtain ⟨hostReady, rom⟩ := l
  cases hostReady
  case false => simp [boot]
  case true =>
    cases rom with
    | none => simp [boot]
    | some rom =>
      simp only [boot, if_true, true_and, Option.some.injEq, exists_eq_left']
      split_ifs with hlong hipf
      · simp [Nat.not_le.2 hlong]
      · simp [hipf]
      · simp [Nat.not_lt.1 hlong, Nat.one_le_iff_ne_zero.2 hipf, eq_comm]

/-- Row r of glyph d is byte 5 × d + r of the font region (10_state.md R40). -/
theorem resetByte_font (cfg : Config) {d r : Nat} (hd : d < 16) (hr : r < 5) :
    cfg.resetByte (5 * d + r) = cfg.font[d][r] := by
  have hlt : 5 * d + r < fontLen := by simp only [fontLen]; omega
  have hglyph : (5 * d + r) / 5 = d := by omega
  have hrow : (5 * d + r) % 5 = r := by omega
  simp only [Config.resetByte, dif_pos hlt, hglyph, hrow]

theorem resetByte_fill (cfg : Config) {a : Nat} (ha : fontLen ≤ a) : cfg.resetByte a = cfg.initFill :=
  dif_neg (Nat.not_lt.2 ha)

/-- Memory after the load: the image from 0x200 on, and what reset leaves everywhere else. -/
theorem readByte_loadRom (cfg : Config) (rom : List Byte) (a : Nat) :
    ((State.resetWith cfg).loadRom rom).readByte a =
      if h : progBase ≤ a ∧ a < progBase + rom.length then rom[a - progBase]'(by omega) else cfg.resetByte a :=
  State.readByte_storeBytes _ _ _ _

/-- Settles O55: the registers are those of reset, which the load of the image leaves, and each address is in the font, in
the image or in neither. -/
theorem resetLoadsFontAndRom : Obligations.ResetLoadsFontAndRom := by
  unfold Obligations.ResetLoadsFontAndRom
  intro cfg rom hlen hipf
  refine ⟨_, boot_eq_next.2 ⟨rfl, rom, rfl, hlen, hipf, rfl⟩, ?_⟩
  have hfont : ∀ d r : Nat, (hd : d < 16) → (hr : r < 5) →
      ((State.resetWith cfg).loadRom rom).readByte (5 * d + r) = cfg.font[d][r] := fun d r hd hr => by
    rw [readByte_loadRom, dif_neg (by simp only [progBase]; omega), resetByte_font cfg hd hr]
  have himage : ∀ k, (h : k < rom.length) → ((State.resetWith cfg).loadRom rom).readByte (0x200 + k) = rom[k] :=
    fun k hk => by
      rw [readByte_loadRom, dif_pos ⟨Nat.le_add_right _ _, Nat.add_lt_add_left hk _⟩]
      simp only [progBase, Nat.add_sub_cancel_left]
  have hfill : ∀ a, 0x50 ≤ a → a < 0x200 ∨ 0x200 + rom.length ≤ a →
      ((State.resetWith cfg).loadRom rom).readByte a = cfg.initFill := fun a ha hout => by
    rw [readByte_loadRom, dif_neg (by simp only [progBase]; omega), resetByte_fill cfg ha]
  refine ⟨fun x => ?_, ?_, ?_, ?_, ?_, ?_, ?_, fun y x => ?_, fun k => ?_, ?_, ?_, ?_, ?_, ?_, hfont, himage, hfill⟩
  all_goals simp [State.loadRom, State.reg, State.resetWith]

/-! ### The invariant at the start -/

/-- Reset meets the invariant for every value of the parameters that is not refused. -/
theorem resetWith_inv {cfg : Config} (hipf : 1 ≤ cfg.ipf) : (State.resetWith cfg).Inv where
  memWf := State.memWf_resetWith cfg
  fontIntact := nofun
  slotCount := List.length_replicate
  slotRange w hw := by
    rw [List.eq_of_mem_replicate hw]
    decide
  spRange := Nat.zero_le _
  iRange := Nat.zero_le _
  pcRange := show (BitVec.ofNat 16 progBase).toNat ≤ 0x10FE by decide
  faultedIff := iff_of_false nofun (fun h => h rfl)
  faultClear _ := ⟨rfl, rfl⟩
  slotsLeft := nofun
  pausedAtPoll := nofun
  ipfPositive := hipf

/-- Settles O57: the default parameters have IPF = 11. -/
theorem resetMeetsInvariant : Obligations.ResetMeetsInvariant := resetWith_inv (by decide)

/-- Settles O58: the image is stored inside Memory and past the font. -/
theorem bootMeetsInvariant : Obligations.BootMeetsInvariant := by
  unfold Obligations.BootMeetsInvariant
  intro cfg l s h
  obtain ⟨-, rom, -, hlen, hipf, rfl⟩ := boot_eq_next.1 h
  exact (resetWith_inv hipf).storeBytes (Nat.add_le_of_le_sub' (by decide) hlen) (fun _ => by decide)

end Sys2Proof.Machine
end

section
/-! PROOFS. What every instruction does to PC, to the devices and to VF. -/

namespace Sys2Proof.Machine

/-- FX0A with a key captured leaves PC, and with none moves it back to the instruction (43_keypad_timers.md R196). -/
theorem execLdKey_pc {x : Reg} {s t : State} (h : execLdKey x s = .next t) :
    t.pc = if ∃ k : Reg, s.keys[k] = true then s.pc else s.pc - 2 := by
  simp only [execLdKey] at h
  split at h
  next k hk => cases h; exact (if_pos ⟨k, (lowestKey_eq_some.1 hk).1⟩).symm
  next hk =>
    cases h
    have hnone : ¬ ∃ k : Reg, s.keys[k] = true := by simpa using lowestKey_eq_none.1 hk
    exact (if_neg hnone).symm

/-- Settles O11, by cases on the instruction: the control transfers and FX0A by their branches, a skip by its condition, and
every other by the update it makes, which leaves PC alone. -/
theorem pcAfterEachInstruction : Obligations.PcAfterEachInstruction := by
  unfold Obligations.PcAfterEachInstruction
  refine ⟨fun s t h => by cases h; rfl, fun i s t h hf => ?_⟩
  cases i <;> simp only [exec] at h
  case jp | jpV0 => cases h; rfl
  case call =>
    obtain ⟨info, rfl⟩ | ⟨-, rfl⟩ := execCall_next h
    · exact absurd rfl hf
    · rfl
  case ret =>
    obtain rfl | ⟨w, hw, rfl⟩ := execRet_next h
    · exact absurd rfl hf
    · exact (congrArg (·.getD 0) hw).symm
  case ldKey => exact execLdKey_pc h
  case seImm | sneImm | seReg | sneReg => cases h; exact State.skipIf_pc s _
  case skp | sknp =>
    simp only [execSkp, execSknp] at h
    split at h <;> cases h
    next k hk => simp [State.skips, hk]
    next => exact absurd rfl hf
  case cls | ldImm | addImm | ldReg | addReg | sub | shr | subn | shl | rnd => cases h; rfl
  case ldFromDt | ldToDt | ldToSt | ldI | addI | ldFont => cases h; rfl
  case orReg | andReg | xorReg => cases h; exact State.setLogic_pc s _ _
  case drw =>
    simp only [execDrw] at h
    split at h <;> cases h
    · exact absurd rfl hf
    · rfl
  case ldBcd | storeRegs =>
    simp only [execLdBcd, execStoreRegs] at h
    split at h <;> cases h
    · exact absurd rfl hf
    · exact State.storeBytes_pc s _ _
  case loadRegs =>
    simp only [execLoadRegs] at h
    split at h <;> cases h
    · exact absurd rfl hf
    · rfl

/-- Beside the fault status, which fault entry writes, an execute phase keeps to its instruction's footprint: both ways it
can end do. -/
theorem exec_devices {i : Instr} {s t : State} (h : exec i s = .next t) :
    (¬ (s.footprintOf i).display → t.display = s.display) ∧ (¬ (s.footprintOf i).delay → t.dt = s.dt) ∧
    (¬ (s.footprintOf i).sound → t.st = s.st) ∧ t.keys = s.keys ∧ t.shown = s.shown ∧ t.renders = s.renders := by
  obtain ⟨info, -, rfl⟩ | hframe := exec_next h
  · simp
  · exact ⟨hframe.display, hframe.delay, hframe.sound, hframe.keys, hframe.shown⟩

theorem exec_regs {i : Instr} {s t : State} (h : exec i s = .next t) {x : Reg} (hx : ¬ (s.footprintOf i).regs x) :
    t.reg x = s.reg x := by
  obtain ⟨info, -, rfl⟩ | hframe := exec_next h
  · exact State.raise_reg s _ _ x
  · exact hframe.regs x hx

theorem State.display_of_footprintOf {s : State} {i : Instr} (h : (s.footprintOf i).display) :
    i = .cls ∨ ∃ x y n, i = .drw x y n := by
  cases i
  case cls => exact .inl rfl
  case drw x y n => exact .inr ⟨x, y, n, rfl⟩
  all_goals exact False.elim h

theorem State.delay_of_footprintOf {s : State} {i : Instr} (h : (s.footprintOf i).delay) : ∃ x, i = .ldToDt x := by
  cases i
  case ldToDt x => exact ⟨x, rfl⟩
  all_goals exact False.elim h

theorem State.sound_of_footprintOf {s : State} {i : Instr} (h : (s.footprintOf i).sound) : ∃ x, i = .ldToSt x := by
  cases i
  case ldToSt x => exact ⟨x, rfl⟩
  all_goals exact False.elim h

/-- Settles O44: the footprints that hold the display, DT and ST are those of the instructions named. -/
theorem onlyNamedInstructionsTouchDevices : Obligations.OnlyNamedInstructionsTouchDevices := by
  unfold Obligations.OnlyNamedInstructionsTouchDevices
  intro i s t h
  obtain ⟨hdisplay, hdelay, hsound, hkeys, hshown, hrenders⟩ := exec_devices h
  have hst : t.st ≠ s.st → ∃ x, i = .ldToSt x := fun hne => State.sound_of_footprintOf (not_imp_comm.1 hsound hne)
  refine ⟨fun hne => State.display_of_footprintOf (not_imp_comm.1 hdisplay hne),
    fun hne => State.delay_of_footprintOf (not_imp_comm.1 hdelay hne), hst, fun hne => hst fun heq => hne ?_,
    hkeys, hshown, hrenders⟩
  simp only [State.soundActive, heq]

/-- Settles O45: the footprints that hold VF are those of the instructions named, and VF is in V0..VX only for X = 0xF. -/
theorem onlyFlagInstructionsWriteVf : Obligations.OnlyFlagInstructionsWriteVf := by
  unfold Obligations.OnlyFlagInstructionsWriteVf
  intro i s t h hne
  have hvf : (s.footprintOf i).regs VF := not_imp_comm.1 (exec_regs h) hne
  cases i
  case addReg | sub | shr | subn | shl | drw => trivial
  case orReg | andReg | xorReg => exact hvf.imp Eq.symm And.left
  case ldImm | addImm | ldReg | rnd | ldFromDt | ldKey => exact hvf.symm
  case loadRegs x => exact Fin.last_le_iff.1 hvf
  all_goals exact False.elim hvf

end Sys2Proof.Machine
end

section
/-! PROOFS. The display's row-major order (10_state.md R32). -/

namespace Sys2Proof.Machine

/-- The row-major array is the library's concatenation of the rows, 32 of the one length 64. -/
theorem Display.rowMajor_eq_flatten (d : Display) : d.rowMajor = d.flatten.toList := by
  simp [Display.rowMajor, Vector.flatten, List.flatMap_def, Vector.toList, Function.comp_def]

/-- Settles O28: element y × 64 + x lies in row (y × 64 + x) / 64 = y at column (y × 64 + x) % 64 = x. -/
theorem displayIsRowMajor : Obligations.DisplayIsRowMajor := by
  unfold Obligations.DisplayIsRowMajor
  intro d
  rw [Display.rowMajor_eq_flatten]
  refine ⟨Vector.length_toList, fun y x hy hx => ?_⟩
  have hrow : (y * 64 + x) / 64 = y := by omega
  have hcolumn : (y * 64 + x) % 64 = x := by omega
  have hlt : y * 64 + x < 64 * 32 := by omega
  rw [Vector.getElem?_toList, Vector.getElem?_eq_getElem hlt, Vector.getElem_flatten]
  simp only [hrow, hcolumn, Display.cell, hy, hx, and_self, dif_pos]

end Sys2Proof.Machine
end

section
/-! PROOFS. Memory (20_memory.md): a fetch sees what was stored, and the font is kept. -/

namespace Sys2Proof.Machine

/-! ### What FX55 leaves -/

/-- The branches of FX55: a MemoryFault, or every address passes its check and V0..VX are stored (44_index_memory.md R215). -/
theorem execStoreRegs_next {x : Reg} {s t : State} (h : execStoreRegs x s = .next t) :
    (∃ a, t = s.raiseMemory a) ∨
    (s.base + x.val ≤ 0xFFF ∧ (s.cfg.fontWrite = .fault → 0x50 ≤ s.base) ∧ t = s.storeBytes s.base (s.regRange x)) := by
  simp only [execStoreRegs] at h
  split at h
  next a hbad => cases h; exact .inl ⟨a, rfl⟩
  next hok =>
    cases h
    obtain hempty | ⟨hend, hfont⟩ := firstBadWrite_eq_none.1 hok
    · exact absurd hempty (Nat.succ_ne_zero _)
    · exact .inr ⟨Nat.le_of_lt_succ hend, hfont, rfl⟩

/-- The byte at I + k after V0..VX are stored from I is Vk. -/
theorem State.readByte_storeRegRange (s : State) {x k : Reg} (hk : k ≤ x) :
    (s.storeBytes s.base (s.regRange x)).readByte (s.base + k.val) = s.reg k := by
  have hlt : k.val < (s.regRange x).length := by
    rw [regRange_length]
    exact Nat.lt_succ_of_le hk
  rw [State.readByte_storeBytes, dif_pos ⟨Nat.le_add_right _ _, Nat.add_lt_add_left hlt _⟩]
  simp [State.regRange, State.reg]

/-- A 16-bit address in PC is fetched from as it stands, big-endian (30_encoding.md R71). -/
theorem State.fetchWord_ofNat_pc (s : State) {a : Nat} (ha : a < 0x10000) :
    ({ s with pc := BitVec.ofNat 16 a } : State).fetchWord = wordOfBytes (s.readByte a) (s.readByte (a + 1)) := by
  have hpc : (BitVec.ofNat 16 a).toNat = a := (BitVec.toNat_ofNat a 16).trans (Nat.mod_eq_of_lt ha)
  simp only [State.fetchWord, State.readByte, hpc]

/-- Settles O39: the run of stores ends at or below 0xFFF, so PC holds I + k unreduced, and the two bytes fetched there are
those stored for Vk and the register after it. -/
theorem fetchSeesStoredRegisters : Obligations.FetchSeesStoredRegisters := by
  unfold Obligations.FetchSeesStoredRegisters
  intro s t x k hnext h hrs hkx
  obtain ⟨a, rfl⟩ | ⟨hend, -, rfl⟩ := execStoreRegs_next h
  · exact absurd rfl hrs
  · have hsecond := s.readByte_storeRegRange (k := ⟨k.val + 1, hnext⟩) (Nat.succ_le_of_lt hkx)
    rw [State.fetchWord_ofNat_pc _ (by omega), s.readByte_storeRegRange (Fin.le_of_lt hkx), Nat.add_assoc, hsecond]

/-! ### The font -/

/-- Only FX33 and FX55 have memory in their footprint, and under `FONT_WRITE` = fault that begins past the font. -/
theorem State.font_not_in_footprintOf {s : State} (hf : s.cfg.fontWrite = .fault) (i : Instr) {a : Nat} (ha : a ≤ 0x4F) :
    ¬ (s.footprintOf i).mem a := by
  cases i
  case ldBcd | storeRegs =>
    rintro ⟨-, -, hfont⟩
    exact absurd (hfont hf) (Nat.not_le_of_lt (Nat.lt_succ_of_le ha))
  all_goals exact not_false

theorem exec_keeps_font {i : Instr} {s t : State} (hf : s.cfg.fontWrite = .fault) (h : exec i s = .next t) {a : Nat}
    (ha : a ≤ 0x4F) : t.readByte a = s.readByte a := by
  obtain ⟨info, -, rfl⟩ | hframe := exec_next h
  · exact State.raise_readByte s _ _ a
  · exact hframe.mem a (State.font_not_in_footprintOf hf i ha)

/-- A poll delivers keys, toggles and quit, and writes no byte of Memory (60_exceptions.md R246). -/
theorem pollStep_keeps_memory {s t : State} (h : pollStep s = .next t) (a : Nat) : t.readByte a = s.readByte a := by
  obtain ⟨-, -, rfl⟩ | ⟨-, rfl⟩ := pollStep_next h
  · exact State.polled_readByte s s.nextPoll a
  · exact State.polled_readByte s s.nextPoll a

/-- Settles O40: of the actions a step can be only an execute phase writes Memory, and its stores keep out of the font. -/
theorem noStepWritesTheFont : Obligations.NoStepWritesTheFont := by
  unfold Obligations.NoStepWritesTheFont
  intro s t hf h a ha
  obtain ⟨-, rfl⟩ | ⟨-, hpoll⟩ | ⟨-, -, rfl⟩ | ⟨left, -, -, hslot⟩ := step_next h
  · rfl
  · exact pollStep_keeps_memory hpoll a
  · calc s.render.tick.readByte a = s.render.readByte a := State.tick_readByte _ a
      _ = s.readByte a := State.render_readByte s a
  · obtain ⟨-, rfl⟩ | ⟨-, ⟨i, -, hexec⟩ | ⟨why, -, rfl⟩⟩ := hslot
    · exact State.enterFault_readByte s _ _ _ a
    · exact (exec_keeps_font (s := s.afterFetch left) hf hexec ha).trans (State.afterFetch_readByte s left a)
    · exact State.afterFetch_readByte s left a

end Sys2Proof.Machine
end

section
/-! PROOFS. Decoding and encoding (30_encoding.md R72 to R75): the word of an instruction decodes back to it, and the fields of a
recognized word assemble to it again. -/

namespace Sys2Proof.Machine

/-! ### Decode after encode -/

/-- The word of a well-formed instruction decodes to it: its fields are the operands, by the format it is assembled in. -/
theorem decode_encode (strict : Bool) {i : Instr} (hwf : i.WellFormed) : decode strict (encode i) = .instr i := by
  cases i
  case cls | ret => cases strict <;> rfl
  case jp nnn | call nnn | ldI nnn | jpV0 nnn =>
    simp (disch := decide) only [encode, decode, category_assembleNNN, address_assembleNNN _ (addressFits_iff.1 hwf)]
  case seImm x nn | sneImm x nn | ldImm x nn | addImm x nn | rnd x nn =>
    simp (disch := decide) only [encode, decode, category_assembleXNN, register_assembleXNN, constant_assembleXNN]
  case seReg x y | sneReg x y =>
    simp (disch := decide) [encode, decode, decodeXY0, category_assembleXYN, registers_assembleXYN, nibble_assembleXYN]
  case ldReg x y | orReg x y | andReg x y | xorReg x y | addReg x y | sub x y | shr x y | subn x y | shl x y =>
    simp (disch := decide) only [encode, decode, decodeFamily8, category_assembleXYN, registers_assembleXYN, nibble_assembleXYN]
  case drw x y n =>
    have hn : n < 16 := of_decide_eq_true hwf
    simp (disch := decide) only [encode, decode, category_assembleXYN, registers_assembleXYN, nibble_assembleXYN _ x y hn]
  case skp x | sknp x =>
    simp (disch := decide) [encode, decode, decodeFamilyE, category_assembleXNN, constant_assembleXNN, register_assembleXNN]
  case ldFromDt x | ldKey x | ldToDt x | ldToSt x | addI x | ldFont x | ldBcd x | storeRegs x | loadRegs x =>
    simp (disch := decide) [encode, decode, decodeFamilyF, category_assembleXNN, constant_assembleXNN, register_assembleXNN]

/-- Settles O1: for every instruction, by the format its word is assembled in. -/
theorem decodeInvertsEncode : Obligations.DecodeInvertsEncode := by
  unfold Obligations.DecodeInvertsEncode
  exact fun strict i hwf => decode_encode strict hwf

/-! ### Encode after decode -/

theorem fieldCategory_lt (w : Word) : fieldCategory w < 16 := by
  rw [fieldCategory_eq]
  omega

section
variable {w : Word} {f : Nat}

/-- A word is assembled from its family and its address (30_encoding.md R73). -/
theorem assembleNNN_fields (hc : fieldCategory w = f) : assembleNNN f (fieldNNN w) = w := by
  subst hc
  apply BitVec.eq_of_toNat_eq
  have hw := w.isLt
  rw [assembleNNN_toNat (fieldCategory_lt w), fieldCategory_eq, fieldNNN_toNat]
  omega

/-- A word is assembled from its family, its register X and its constant NN. -/
theorem assembleXNN_fields {x : Reg} {nn : Byte} (hc : fieldCategory w = f) (hx : fieldX w = x) (hnn : fieldNN w = nn) :
    assembleXNN f x nn = w := by
  subst hc hx hnn
  apply BitVec.eq_of_toNat_eq
  have hw := w.isLt
  rw [assembleXNN_toNat (fieldCategory_lt w), fieldCategory_eq, fieldX_val, fieldNN_toNat]
  omega

/-- A word is assembled from its family, its registers X and Y and its nibble N. -/
theorem assembleXYN_fields {n : Nat} (hc : fieldCategory w = f) (hn : fieldN w = n) :
    assembleXYN f (fieldX w) (fieldY w) n = w := by
  subst hc hn
  apply BitVec.eq_of_toNat_eq
  have hw := w.isLt
  rw [assembleXYN_toNat (fieldCategory_lt w), fieldCategory_eq, fieldX_val, fieldY_val, fieldN_eq]
  omega

end

/-- A recognized word is the encoding of what it decodes to: every family's decoder reads the fields that the word is assembled
from. -/
theorem encode_of_decode {w : Word} {i : Instr} (h : decode true w = .instr i) : encode i = w := by
  unfold decode at h
  split at h <;> rename_i hc -- the cases h_1 to h_16 are the families 0x0 to 0xF
  case h_1 =>
    simp only [decodeFamily0] at h
    split_ifs at h with hx hnn hnn
    all_goals
      cases h
      have hw : assembleXNN 0x0 0 (fieldNN w) = w := assembleXNN_fields hc (by simpa using hx) rfl
      rw [← hw, hnn]
      rfl
  case h_6 | h_10 =>
    simp only [decodeXY0] at h
    split_ifs at h with hn
    cases h
    exact assembleXYN_fields hc (by simpa using hn)
  case h_9 =>
    simp only [decodeFamily8] at h
    split at h <;> cases h <;> exact assembleXYN_fields hc (by assumption)
  case h_15 =>
    simp only [decodeFamilyE] at h
    split_ifs at h <;> cases h <;> exact assembleXNN_fields hc rfl (by assumption)
  case h_16 =>
    have hF : fieldCategory w = 0xF := by
      have hlt := fieldCategory_lt w
      simp only [imp_false] at *
      omega
    simp only [decodeFamilyF] at h
    split_ifs at h <;> cases h <;> exact assembleXNN_fields hF rfl (by assumption)
  case h_2 | h_3 | h_11 | h_12 => cases h; exact assembleNNN_fields hc
  case h_14 => cases h; exact assembleXYN_fields hc rfl
  case h_4 | h_5 | h_7 | h_8 | h_13 => cases h; exact assembleXNN_fields hc rfl rfl

/-- Settles O2: the fields that a word decodes to are the ones it is assembled from, and they fit its format. -/
theorem encodeInvertsDecode : Obligations.EncodeInvertsDecode := by
  unfold Obligations.EncodeInvertsDecode
  exact fun w i h => ⟨encode_of_decode h, decode_wellFormed h⟩

end Sys2Proof.Machine
end

section
/-! PROOFS. The opcode table (30_encoding.md R75, R82): what its masks leave of a word, and that its rows decide every word. -/

namespace Sys2Proof.Machine

/-! ### The masks -/

theorem and_F000_toNat (w : Word) : (w &&& 0xF000).toNat = fieldCategory w * 0x1000 := by
  have hmask : (0xF000 : Word) = BitVec.allOnes 16 <<< 12 := by decide
  rw [hmask, ← BitVec.shiftLeft_ushiftRight, BitVec.toNat_shiftLeft, BitVec.toNat_ushiftRight, fieldCategory_eq,
    Nat.shiftRight_eq_div_pow, Nat.shiftLeft_eq]
  omega

/-- What a mask of bits 15:12 and the `k` lowest bits leaves of a word. -/
theorem and_familyMask (w : Word) {k : Nat} (hk : k ≤ 12) :
    w &&& (0xF000 ||| BitVec.ofNat 16 (2 ^ k - 1)) = assemble (fieldCategory w) (w.toNat % 2 ^ k) := by
  have hpow : 2 ^ k ≤ 2 ^ 12 := Nat.pow_le_pow_right (by decide) hk
  have hlow : w.toNat % 2 ^ k < 2 ^ 12 := (Nat.mod_lt _ (Nat.two_pow_pos k)).trans_le hpow
  apply BitVec.eq_of_toNat_eq
  rw [assemble_toNat (fieldCategory_lt w) hlow, BitVec.and_or_distrib_left, BitVec.toNat_or, and_F000_toNat, BitVec.toNat_and w,
    BitVec.toNat_ofNat, Nat.mod_eq_of_lt (by omega), Nat.and_two_pow_sub_one_eq_mod, Nat.mul_comm]
  exact (Nat.two_pow_add_eq_or_of_lt hlow _).symm

section
variable {w p : Word} {f : Nat}

/-- Mask F000 leaves the family. -/
theorem and_F000 (hc : fieldCategory w = f) : w &&& 0xF000 = assemble f 0 := by
  subst hc
  have h := and_familyMask w (k := 0) (by decide)
  rwa [Nat.pow_zero, Nat.mod_one] at h

/-- Mask F00F leaves the family and N. -/
theorem and_F00F {n : Nat} (hc : fieldCategory w = f) (hn : fieldN w = n) : w &&& 0xF00F = assemble f n := by
  subst hc hn
  rw [fieldN_eq]
  exact and_familyMask w (k := 4) (by decide)

/-- Mask F0FF leaves the family and NN. -/
theorem and_F0FF {nn : Byte} (hc : fieldCategory w = f) (hnn : fieldNN w = nn) : w &&& 0xF0FF = assemble f nn.toNat := by
  subst hc hnn
  rw [fieldNN_toNat]
  exact and_familyMask w (k := 8) (by decide)

theorem assemble_eq_iff {low : Nat} (hf : f < 16) (hlow : low < 0x1000) :
    assemble f low = p ↔ f = p.toNat / 0x1000 ∧ low = p.toNat % 0x1000 := by
  rw [← BitVec.toNat_inj, assemble_toNat hf hlow]
  omega

theorem fields_of_and_F000 (h : w &&& 0xF000 = p) : fieldCategory w = p.toNat / 0x1000 := by
  rw [and_F000 rfl, assemble_eq_iff (fieldCategory_lt w) (by decide)] at h
  exact h.1

theorem fields_of_and_F00F (h : w &&& 0xF00F = p) : fieldCategory w = p.toNat / 0x1000 ∧ fieldN w = p.toNat % 0x1000 := by
  have hn := fieldN_lt w
  rwa [and_F00F rfl rfl, assemble_eq_iff (fieldCategory_lt w) (by omega)] at h

theorem fields_of_and_F0FF (h : w &&& 0xF0FF = p) :
    fieldCategory w = p.toNat / 0x1000 ∧ fieldNN w = BitVec.ofNat 8 (p.toNat % 0x1000) := by
  have hnn := (fieldNN w).isLt
  rw [and_F0FF rfl rfl, assemble_eq_iff (fieldCategory_lt w) (by omega)] at h
  rw [← h.2, BitVec.ofNat_toNat, BitVec.setWidth_eq]
  exact ⟨h.1, rfl⟩

end

/-! ### The rows -/

theorem plainRows_decide : ∀ r ∈ opcodeRowsPlain, ∀ w : Word, r.Matches w → decode true w = .instr (r.build w) := by
  simp only [opcodeRowsPlain, List.forall_mem_cons, List.not_mem_nil, false_imp_iff, implies_true, and_true]
  refine ⟨?cls, ?ret, ?jp, ?call, ?seImm, ?sneImm, ?seReg, ?ldImm, ?addImm, ?sneReg, ?ldI, ?jpV0, ?rnd, ?drw⟩ <;> intro w h
  case cls | ret =>
    have hw : w &&& BitVec.allOnes 16 = _ := h
    rw [BitVec.and_allOnes] at hw
    rw [hw]
    rfl
  case seReg | sneReg =>
    obtain ⟨hc, hn⟩ := fields_of_and_F00F h
    simp [decode, decodeXY0, hc, hn]
  all_goals
    have hc := fields_of_and_F000 h
    simp [decode, hc]

theorem aluRow_decides {r : OpcodeRow} (hr : r ∈ opcodeRowsAlu) {w : Word} (h : r.Matches w) :
    decode true w = .instr (r.build w) := by
  fin_cases hr
  all_goals
    obtain ⟨hc, hn⟩ := fields_of_and_F00F h
    simp [decode, decodeFamily8, hc, hn]

theorem miscRow_decides {r : OpcodeRow} (hr : r ∈ opcodeRowsMisc) {w : Word} (h : r.Matches w) :
    decode true w = .instr (r.build w) := by
  fin_cases hr
  all_goals
    obtain ⟨hc, hnn⟩ := fields_of_and_F0FF h
    simp [decode, decodeFamilyE, decodeFamilyF, hc, hnn]

/-- A word decodes as the row it matches says. -/
theorem opcodeRow_decides {r : OpcodeRow} (hr : r ∈ opcodeRows) {w : Word} (h : r.Matches w) :
    decode true w = .instr (r.build w) := by
  rw [opcodeRows, List.mem_append, List.mem_append] at hr
  obtain (hplain | halu) | hmisc := hr
  · exact plainRows_decide r hplain w h
  · exact aluRow_decides halu h
  · exact miscRow_decides hmisc h

/-- Two rows' patterns differ under the bits that both masks hold. -/
theorem opcodeRows_pairwise_differ :
    opcodeRows.Pairwise (fun r r' => r.pattern &&& r'.mask ≠ r'.pattern &&& r.mask) := by decide

/-- Two rows that match one word agree under the bits that both masks hold. -/
theorem pattern_and_mask_of_matches {r r' : OpcodeRow} {w : Word} (h : r.Matches w) (h' : r'.Matches w) :
    r.pattern &&& r'.mask = r'.pattern &&& r.mask := by
  calc r.pattern &&& r'.mask = w &&& r.mask &&& r'.mask := by rw [← h]
    _ = w &&& r'.mask &&& r.mask := by rw [BitVec.and_assoc, BitVec.and_comm r.mask, BitVec.and_assoc]
    _ = r'.pattern &&& r.mask := by rw [← h']

/-- Settles O3: each row decides its words, and a word of two rows would have both their patterns under the common mask bits. -/
theorem opcodeTableDecides : Obligations.OpcodeTableDecides := by
  unfold Obligations.OpcodeTableDecides
  refine ⟨rfl, fun r hr w h => opcodeRow_decides hr h, ?_⟩
  exact opcodeRows_pairwise_differ.imp fun hdiffer w ⟨h, h'⟩ => hdiffer (pattern_and_mask_of_matches h h')

theorem exists_row_of_and {w m p : Word} (h : w &&& m = p) (hrow : ∃ r ∈ opcodeRows, r.mask = m ∧ r.pattern = p) :
    ∃ r ∈ opcodeRows, r.Matches w := by
  obtain ⟨r, hr, rfl, rfl⟩ := hrow
  exact ⟨r, hr, h⟩

/-- Every instruction has its row: the row's mask leaves of the word what no operand changes. -/
theorem encode_matches_row (i : Instr) : ∃ r ∈ opcodeRows, r.Matches (encode i) := by
  cases i
  case cls | ret => decide
  case jp nnn | call nnn | ldI nnn | jpV0 nnn =>
    exact exists_row_of_and (and_F000 (category_assembleNNN (by decide) nnn)) (by decide)
  case seImm x nn | sneImm x nn | ldImm x nn | addImm x nn | rnd x nn =>
    exact exists_row_of_and (and_F000 (category_assembleXNN (by decide) x nn)) (by decide)
  case drw x y n => exact exists_row_of_and (and_F000 (category_assembleXYN (by decide) x y n)) (by decide)
  case seReg x y | sneReg x y | ldReg x y | orReg x y | andReg x y | xorReg x y | addReg x y | sub x y | shr x y | subn x y
      | shl x y =>
    exact exists_row_of_and
      (and_F00F (category_assembleXYN (by decide) x y _) (nibble_assembleXYN (by decide) x y (by decide))) (by decide)
  case skp x | sknp x | ldFromDt x | ldKey x | ldToDt x | ldToSt x | addI x | ldFont x | ldBcd x | storeRegs x | loadRegs x =>
    exact exists_row_of_and
      (and_F0FF (category_assembleXNN (by decide) x _) (constant_assembleXNN (by decide) x _)) (by decide)

/-- Settles O4: a row decides the words it matches, and a recognized word is the encoding of an instruction, which has a row. -/
theorem unrecognizedMatchesNoRow : Obligations.UnrecognizedMatchesNoRow := by
  unfold Obligations.UnrecognizedMatchesNoRow
  intro w
  constructor
  · rintro ⟨why, hw⟩ r hr hmatch
    rw [opcodeRow_decides hr hmatch] at hw
    cases hw
  · intro hno
    cases hd : decode true w with
    | unrecognized why => exact ⟨why, rfl⟩
    | instr i =>
      obtain ⟨r, hr, hmatch⟩ := encode_matches_row i
      rw [encode_of_decode hd] at hmatch
      exact absurd hmatch (hno r hr)

end Sys2Proof.Machine
end

section
/-! PROOFS. The second level of dispatch (30_encoding.md R76 to R79). -/

namespace Sys2Proof.Machine

section
variable {strict : Bool} {w : Word}

theorem decode_category_0 (hc : fieldCategory w = 0x0) : decode strict w = decodeFamily0 strict w := by
  simp only [decode, hc]

theorem decode_category_8 (hc : fieldCategory w = 0x8) : decode strict w = decodeFamily8 w := by
  simp only [decode, hc]

theorem decode_category_E (hc : fieldCategory w = 0xE) : decode strict w = decodeFamilyE w := by
  simp only [decode, hc]

theorem decode_category_F (hc : fieldCategory w = 0xF) : decode strict w = decodeFamilyF w := by
  simp only [decode, hc]

/-- Only families 0, 5 and 9 look at `DISPATCH_STRICT` (30_encoding.md R76). -/
theorem decode_eq_decode_true (hc : fieldCategory w ∉ [0x0, 0x5, 0x9]) : decode strict w = decode true w := by
  unfold decode
  split
  case h_1 h | h_6 h | h_10 h => exact absurd (by rw [h]; decide) hc
  all_goals rfl

/-- A family of one row takes every word of it (30_encoding.md R79): the row's mask holds the family only. -/
theorem category_matches_row (hc : fieldCategory w ∈ [0x1, 0x2, 0x3, 0x4, 0x6, 0x7, 0xA, 0xB, 0xC, 0xD]) :
    ∃ r ∈ opcodeRows, r.mask = 0xF000 ∧ r.Matches w := by
  have hrows : ∀ f ∈ [0x1, 0x2, 0x3, 0x4, 0x6, 0x7, 0xA, 0xB, 0xC, 0xD],
      ∃ r ∈ opcodeRows, r.mask = 0xF000 ∧ r.pattern = assemble f 0 := by decide
  obtain ⟨r, hr, hmask, hpattern⟩ := hrows _ hc
  refine ⟨r, hr, hmask, ?_⟩
  rw [OpcodeRow.Matches, hmask, hpattern, and_F000 rfl]

theorem decodeFamily0_cases (strict : Bool) (w : Word) :
    decodeFamily0 strict w = .instr .cls ∨ decodeFamily0 strict w = .instr .ret ∨
      decodeFamily0 strict w = .unrecognized .family0 := by
  unfold decodeFamily0
  split_ifs <;> simp

theorem decodeFamily0_not_strict (w : Word) :
    decodeFamily0 false w = if fieldNN w = 0xE0 then .instr .cls else if fieldNN w = 0xEE then .instr .ret
      else .unrecognized .family0 := by
  simp [decodeFamily0]

end

/-- Settles O5, family by family: 8, E and F by their second level, the families of one row by that row. -/
theorem secondLevelDispatch : Obligations.SecondLevelDispatch := by
  unfold Obligations.SecondLevelDispatch
  intro strict w
  refine ⟨fun hc => ⟨fun p hp hn => ?_, fun hn => ?_⟩, fun hc => ⟨fun p hp hnn => ?_, fun hnn => ?_⟩,
    fun hc => ⟨fun p hp hnn => ?_, fun hnn => ?_⟩, fun hc => ?_⟩
  · rw [decode_category_8 hc]
    fin_cases hp <;> simp only [decodeFamily8, hn]
  · rw [decode_category_8 hc]
    simp only [List.mem_cons, List.not_mem_nil, or_false] at hn
    rcases hn with hn | hn | hn | hn | hn | hn | hn <;> simp only [decodeFamily8, hn]
  · rw [decode_category_E hc]
    fin_cases hp <;> simp [decodeFamilyE, hnn]
  · rw [decode_category_E hc]
    simp only [List.mem_cons, List.not_mem_nil, or_false, not_or] at hnn
    simp only [decodeFamilyE, hnn, if_false]
  · rw [decode_category_F hc]
    fin_cases hp <;> simp [decodeFamilyF, hnn]
  · rw [decode_category_F hc]
    simp only [List.mem_cons, List.not_mem_nil, or_false, not_or] at hnn
    simp only [decodeFamilyF, hnn, if_false]
  · have hstrict : ∀ f ∈ [0x1, 0x2, 0x3, 0x4, 0x6, 0x7, 0xA, 0xB, 0xC, 0xD], f ∉ [0x0, 0x5, 0x9] := by decide
    obtain ⟨r, hr, hmask, hmatch⟩ := category_matches_row hc
    exact ⟨r, hr, hmask, hmatch, (decode_eq_decode_true (hstrict _ hc)).trans (opcodeRow_decides hr hmatch)⟩

/-- Settles O6: under `DISPATCH_STRICT` the word of a recognized instruction is its encoding; otherwise the decoders of families
0, 5 and 9 lose their first test. -/
theorem dispatchStrictSelects : Obligations.DispatchStrictSelects := by
  unfold Obligations.DispatchStrictSelects
  intro w
  refine ⟨fun hc => ?_, fun hc => ?_, fun hc => ?_, decode_eq_decode_true⟩
  · have hcls : decode true w = .instr .cls ↔ w = 0x00E0 := ⟨fun h => (encode_of_decode h).symm, fun h => by rw [h]; rfl⟩
    have hret : decode true w = .instr .ret ↔ w = 0x00EE := ⟨fun h => (encode_of_decode h).symm, fun h => by rw [h]; rfl⟩
    refine ⟨hcls, hret, fun hneCls hneRet => ?_, ?_⟩
    · rw [decode_category_0 hc] at hcls hret ⊢
      obtain h | h | h := decodeFamily0_cases true w
      · exact absurd (hcls.1 h) hneCls
      · exact absurd (hret.1 h) hneRet
      · exact h
    · rw [decode_category_0 hc, decodeFamily0_not_strict]
      refine ⟨?_, ?_, fun hneCls hneRet => by rw [if_neg hneCls, if_neg hneRet]⟩
      · split_ifs with hE0
        exacts [iff_of_true rfl hE0, iff_of_false nofun hE0, iff_of_false nofun hE0]
      · split_ifs with hE0 hEE
        exacts [iff_of_false nofun (by rw [hE0]; decide), iff_of_true rfl hEE, iff_of_false nofun hEE]
  · simp [decode, hc, decodeXY0]
  · simp [decode, hc, decodeXY0]

/-- Settles O7, by running the decoder on each word. -/
theorem sampleWordsDecode : Obligations.SampleWordsDecode := by
  unfold Obligations.SampleWordsDecode
  decide

end Sys2Proof.Machine
end

section
/-! PROOFS. The instruction step (30_encoding.md R71, R72, R80, R85), and that every step from the invariant answers a next
state. -/

namespace Sys2Proof.Machine

/-! ### One slot of a running batch -/

section
variable {s : State} {left : Nat}

theorem stepInstr_of_fetchFails (hf : s.fetchFails = true) (left : Nat) :
    stepInstr left s = .next (s.enterFault .decodeFault s.pc s.pc) := if_pos hf

theorem stepInstr_of_instr {i : Instr} (hf : s.fetchFails = false) (hd : decode s.cfg.dispatchStrict s.fetchWord = .instr i) :
    stepInstr left s = exec i (s.afterFetch left) := by
  simp only [stepInstr, hf, hd, Bool.false_eq_true, if_false]

theorem stepInstr_of_unrecognized {why : Unrecognized} (hf : s.fetchFails = false)
    (hd : decode s.cfg.dispatchStrict s.fetchWord = .unrecognized why) :
    stepInstr left s = .next (s.afterFetch left) := by
  simp only [stepInstr, hf, hd, Bool.false_eq_true, if_false, execUnrecognized]

end

/-- Settles O8: the fetch succeeds below 0xFFF, and the word fetched is the two bytes at PC. -/
theorem stepRunsDecodedInstruction : Obligations.StepRunsDecodedInstruction := by
  unfold Obligations.StepRunsDecodedInstruction
  intro s left i hrun hslot hpc hd
  rw [step_batch hrun hslot]
  exact stepInstr_of_instr (State.fetchFails_eq_false.2 hpc) hd

/-- Settles O10: the state after the fetch is already the next state. -/
theorem unrecognizedOnlyAdvancesPc : Obligations.UnrecognizedOnlyAdvancesPc := by
  unfold Obligations.UnrecognizedOnlyAdvancesPc
  intro s left why hrun hslot hpc hd
  have hstep : step s = .next (s.afterFetch left) := by
    rw [step_batch hrun hslot, stepInstr_of_unrecognized (State.fetchFails_eq_false.2 hpc) hd]
  have hadvance : (s.afterFetch left).pc.toNat = s.pc.toNat + 2 := by
    rw [State.afterFetch_pc]
    bv_omega
  exact ⟨_, hstep, hadvance, rfl, frame_setPc { s with phase := .batch left } (s.pc + 2)⟩

theorem ownFault_ne_decodeFault (i : Instr) : ownFault i ≠ .decodeFault := by
  cases i <;> exact nofun

/-- No execute phase records a DecodeFault (60_exceptions.md R233). -/
theorem exec_fault_ne_decodeFault {i : Instr} {s t : State} (h : exec i s = .next t) (hs : s.fault ≠ .decodeFault) :
    t.fault ≠ .decodeFault := by
  obtain ⟨info, -, rfl⟩ | hframe := exec_next h
  · exact ownFault_ne_decodeFault i
  · have hkept : t.fault = s.fault := hframe.fault (by rw [State.footprintOf_fault]; exact not_false)
    rwa [hkept]

/-- Settles O9: a fetch that fails is fault entry, and after one that succeeds nothing raises DecodeFault. -/
theorem fetchIsBigEndianAndBounded : Obligations.FetchIsBigEndianAndBounded := by
  unfold Obligations.FetchIsBigEndianAndBounded
  intro s left
  refine ⟨wordOfBytes_toNat _ _, fun hrun hslot => ⟨fun hpc => ?_, fun hpc hfault t h => ?_⟩⟩
  · have hstep : step s = .next (s.enterFault .decodeFault s.pc s.pc) := by
      rw [step_batch hrun hslot, stepInstr_of_fetchFails (decide_eq_true hpc)]
    exact ⟨_, hstep, rfl, rfl, rfl, rfl, rfl, frame_enterFault s _ _ _⟩
  · have hok : s.fetchFails = false := State.fetchFails_eq_false.2 hpc
    have hne : (s.afterFetch left).fault ≠ .decodeFault := by
      rw [State.afterFetch_fault, hfault]
      exact nofun
    rw [step_batch hrun hslot] at h
    cases hd : decode s.cfg.dispatchStrict s.fetchWord with
    | instr i =>
      rw [stepInstr_of_instr hok hd] at h
      exact exec_fault_ne_decodeFault h hne
    | unrecognized why =>
      rw [stepInstr_of_unrecognized hok hd] at h
      cases h
      exact hne

/-! ### Every step answers a next state -/

theorem execRet_answers {s : State} (hsp : s.sp ≤ s.slots.length) : ∃ t, execRet s = .next t := by
  unfold execRet
  split
  case isTrue => exact ⟨_, rfl⟩
  case isFalse hpos =>
    have htop : s.topSlot = some s.slots[s.sp - 1] := List.getElem?_eq_getElem (by omega)
    rw [htop]
    exact ⟨_, rfl⟩

theorem execCall_answers {s : State} (hslots : s.slots.length = s.cfg.stackDepth) (nnn : Word) :
    ∃ t, execCall nnn s = .next t := by
  unfold execCall
  split
  case isTrue => exact ⟨_, rfl⟩
  case isFalse hdepth =>
    rw [if_pos (by omega)]
    exact ⟨_, rfl⟩

/-- Every instruction answers a next state where the call stack has STACK_DEPTH slots and SP points into them. -/
theorem exec_answers {s : State} (hslots : s.slots.length = s.cfg.stackDepth) (hsp : s.sp ≤ s.cfg.stackDepth) (i : Instr) :
    ∃ t, exec i s = .next t := by
  cases i
  case ret => exact execRet_answers (hslots ▸ hsp)
  case call nnn => exact execCall_answers hslots nnn
  case drw | skp | sknp | ldKey | ldBcd | storeRegs | loadRegs =>
    simp only [exec, execDrw, execSkp, execSknp, execLdKey, execLdBcd, execStoreRegs, execLoadRegs]
    split <;> exact ⟨_, rfl⟩
  all_goals exact ⟨_, rfl⟩

/-- A poll is refused only with IPF = 0 (60_exceptions.md R247). -/
theorem pollStep_answers {s : State} (hipf : 1 ≤ s.cfg.ipf) : ∃ t, pollStep s = .next t := by
  have hne : (s.polled s.nextPoll).cfg.ipf ≠ 0 := Nat.ne_of_gt hipf
  simp only [pollStep, if_neg hne]
  split <;> exact ⟨_, rfl⟩

theorem stepInstr_answers {s : State} (hinv : s.Inv) (left : Nat) : ∃ t, stepInstr left s = .next t := by
  cases hf : s.fetchFails with
  | true => exact ⟨_, stepInstr_of_fetchFails hf left⟩
  | false =>
    cases hd : decode s.cfg.dispatchStrict s.fetchWord with
    | instr i =>
      rw [stepInstr_of_instr hf hd]
      exact exec_answers (s := s.afterFetch left) hinv.slotCount hinv.spRange i
    | unrecognized why => exact ⟨_, stepInstr_of_unrecognized hf hd⟩

/-- Settles O60, by the actions a step can be: a terminal state's own step, a poll, the end of a frame, an instruction slot. -/
theorem stepAnswersNextState : Obligations.StepAnswersNextState := by
  unfold Obligations.StepAnswersNextState
  intro s hinv
  unfold step State.nextAction
  split
  case h_1 | h_2 => exact ⟨s, rfl⟩
  case h_3 | h_4 => exact pollStep_answers hinv.ipfPositive
  case h_5 => exact ⟨_, rfl⟩
  case h_6 left _ _ => exact stepInstr_answers hinv left

end Sys2Proof.Machine
end

section
/-! PROOFS. Control transfer (40_control.md): skips and jumps, and the call stack under 2NNN and 00EE. -/

namespace Sys2Proof.Machine

/-! ### Skips and jumps -/

theorem State.skipIf_decide_pc (s : State) (p : Prop) [Decidable p] :
    (s.skipIf (decide p)).pc = if p then s.pc + 2 else s.pc := by
  simp only [State.skipIf_pc, decide_eq_true_eq]

theorem State.fetchFails_eq_true {s : State} : s.fetchFails = true ↔ 0xFFF ≤ s.pc.toNat := decide_eq_true_iff

/-- BNNN's sum of a 12-bit address and a byte stays within 16 bits (40_control.md R109). -/
theorem jpV0_target_toNat {nnn : Word} (hnnn : nnn.toNat < 0x1000) (b : Byte) :
    (nnn + b.setWidth 16).toNat = nnn.toNat + b.toNat := by
  have hb := b.isLt
  rw [BitVec.toNat_add, BitVec.toNat_setWidth_of_le (by decide), Nat.mod_eq_of_lt (by omega)]

/-- Settles O18: each of the four is a skip on its condition, the two negated ones with the branches the other way round. -/
theorem compareSkips : Obligations.CompareSkips := by
  unfold Obligations.CompareSkips
  intro s x y nn
  refine ⟨⟨_, rfl, State.skipIf_decide_pc s _, frame_skipIf s _⟩, ⟨_, rfl, ?_, frame_skipIf s _⟩,
    ⟨_, rfl, State.skipIf_decide_pc s _, frame_skipIf s _⟩, ⟨_, rfl, ?_, frame_skipIf s _⟩⟩
  all_goals rw [State.skipIf_decide_pc, ite_not]

/-- Settles O19: PC is the target, so the next fetch fails exactly when the target lies at or above 0xFFF. -/
theorem jumpsSetPc : Obligations.JumpsSetPc := by
  unfold Obligations.JumpsSetPc
  intro s nnn hnnn
  have hsum := jpV0_target_toNat hnnn (s.reg V0)
  refine ⟨⟨s.setPc nnn, rfl, rfl, ?_, frame_setPc s _⟩, ⟨_, rfl, hsum, ?_, frame_setPc s _⟩⟩
  · rw [State.fetchFails_eq_true, State.setPc_pc]
    omega
  · rw [State.fetchFails_eq_true, State.setPc_pc, hsum]

/-! ### The branches of 2NNN and 00EE -/

section
variable {s : State}

theorem exec_call_of_room (hroom : s.sp < s.cfg.stackDepth) (hslot : s.sp < s.slots.length) (nnn : Word) :
    exec (.call nnn) s = .next ((s.push s.pc).setPc nnn) := by
  simp only [exec, execCall, if_neg (Nat.not_le.2 hroom), if_pos hslot]

theorem exec_call_of_full (hfull : s.cfg.stackDepth ≤ s.sp) (nnn : Word) :
    exec (.call nnn) s = .next (s.raise .stackOverflow (BitVec.ofNat 16 s.sp)) := if_pos hfull

theorem exec_ret_of_topSlot {w : Word} (hpos : 0 < s.sp) (htop : s.topSlot = some w) :
    exec .ret s = .next (s.pop.setPc w) := by
  simp only [exec, execRet, if_neg (Nat.ne_of_gt hpos), htop]

theorem exec_ret_of_empty (hempty : s.sp = 0) : exec .ret s = .next (s.raise .stackUnderflow 0) := if_pos hempty

/-- FAULT_INFO holds the whole SP while SP fits 16 bits (log entry 15). -/
theorem call_faults_of_full (hfull : s.cfg.stackDepth ≤ s.sp) (hsp : s.sp < 65536) (nnn : Word) :
    Faults (.call nnn) .stackOverflow s.sp s := by
  have hfault := takesFault_raise s .stackOverflow (BitVec.ofNat 16 s.sp)
  rw [BitVec.toNat_ofNat, Nat.mod_eq_of_lt hsp] at hfault
  exact ⟨_, exec_call_of_full hfull nnn, hfault⟩

theorem State.push_slots_sp (hslot : s.sp < s.slots.length) (w : Word) : (s.push w).slots[s.sp]? = some w :=
  List.getElem?_set_self hslot

end

/-- Settles O20, by the two branches of 2NNN. -/
theorem callPushesReturnAddress : Obligations.CallPushesReturnAddress := by
  unfold Obligations.CallPushesReturnAddress
  intro s nnn hslots hsp
  refine ⟨fun hroom => ?_, fun hfull => call_faults_of_full hfull hsp nnn⟩
  have hslot : s.sp < s.slots.length := hslots ▸ hroom
  exact ⟨_, exec_call_of_room hroom hslot nnn, State.push_slots_sp hslot s.pc, rfl, rfl, frame_call s nnn⟩

/-- Settles O21, by the two branches of 00EE: with SP above 0 State holds the top slot, and PC gets what stands there. -/
theorem returnPopsIntoPc : Obligations.ReturnPopsIntoPc := by
  unfold Obligations.ReturnPopsIntoPc
  intro s hsp
  refine ⟨fun hpos => ?_, fun hempty => ⟨_, exec_ret_of_empty hempty, takesFault_raise s .stackUnderflow 0⟩⟩
  have htop : s.topSlot = some s.slots[s.sp - 1] := List.getElem?_eq_getElem (by omega)
  exact ⟨_, exec_ret_of_topSlot hpos htop, htop, rfl, State.fetchFails_eq_true, frame_ret s _⟩

/-- Settles O22: the slot the CALL writes is the top slot when the RET executes, wherever PC is by then. -/
theorem callThenReturnComesBack : Obligations.CallThenReturnComesBack := by
  unfold Obligations.CallThenReturnComesBack
  intro s nnn elsewhere hslots hroom
  have hslot : s.sp < s.slots.length := hslots ▸ hroom
  have htop : ((s.push s.pc).setPc elsewhere).topSlot = some s.pc := State.push_slots_sp hslot s.pc
  have hret := exec_ret_of_topSlot (Nat.succ_pos s.sp) htop
  exact ⟨_, _, exec_call_of_room hroom hslot nnn, hret, rfl, rfl, rfl⟩

/-! ### Nested calls -/

/-- A run of nested calls that the free slots can hold takes one slot for each call and writes no slot in use before it. -/
theorem execAll_calls (targets : List Word) {s : State} (hslots : s.slots.length = s.cfg.stackDepth)
    (hroom : s.sp + targets.length ≤ s.cfg.stackDepth) :
    ∃ t, execAll (targets.map .call) s = .next t ∧ t.sp = s.sp + targets.length ∧
      Frame { stackPointer := True, slots := (s.sp ≤ ·) } s t := by
  induction targets generalizing s with
  | nil => exact ⟨s, rfl, rfl, frame_refl s _⟩
  | cons nnn targets ih =>
    rw [List.length_cons] at hroom ⊢
    have hcall := exec_call_of_room (s := s) (by omega) (by omega) nnn
    have hframe := frame_call s nnn
    have hrest : s.sp + 1 + targets.length ≤ s.cfg.stackDepth := by omega
    obtain ⟨t, hrun, hsp, hframes⟩ := ih (s := (s.push s.pc).setPc nnn) (hframe.slotCount.trans hslots) hrest
    refine ⟨t, ?_, hsp.trans (Nat.succ_add_eq_add_succ s.sp targets.length), ?_⟩
    · rw [List.map_cons, execAll, hcall]
      exact hrun
    · apply hframe.trans hframes
      case slots =>
        rintro k (rfl | hk)
        · exact Nat.le_refl _
        · exact Nat.le_of_succ_le hk
      all_goals simp

/-- Settles O23: the calls fill the stack slot by slot, and with SP = STACK_DEPTH the next one is the overflow branch. -/
theorem callsNestToStackDepth : Obligations.CallsNestToStackDepth := by
  unfold Obligations.CallsNestToStackDepth
  intro s targets last hempty hslots hdepth hlen
  obtain ⟨t, hrun, hsp, hframe⟩ := execAll_calls targets hslots (by omega)
  rw [hempty, Nat.zero_add] at hsp
  refine ⟨t, hrun, hsp, hframe.runState not_false, hframe.fault not_false, fun hfull => ?_⟩
  rw [← hfull, ← hsp]
  exact call_faults_of_full (by rw [hframe.cfg, hsp, hfull]) (by omega) last

end Sys2Proof.Machine
end

section
/-! PROOFS. Register loads and ALU (41_alu.md): what VX and VF hold after each write, the flags as numbers, and the six statements
about the instructions. -/

namespace Sys2Proof.Machine

/-! ### VX and VF after each way to write them -/

section
variable (s : State)

theorem State.setReg_reg_self (x : Reg) (b : Byte) : (s.setReg x b).reg x = b := by
  rw [State.setReg_reg, if_pos rfl]

/-- The flag is the last write, so VF holds it also for X = 0xF (00_scope.md R12). -/
theorem State.setRegThenFlag_reg_VF (x : Reg) (b : Byte) (c : Bool) : (s.setRegThenFlag x b c).reg VF = flagByte c := by
  rw [State.setRegThenFlag_reg, if_pos rfl]

theorem State.setRegThenFlag_reg_self {x : Reg} (hx : x ≠ VF) (b : Byte) (c : Bool) : (s.setRegThenFlag x b c).reg x = b := by
  rw [State.setRegThenFlag_reg, if_neg hx, if_pos rfl]

theorem State.setLogic_reg_VF (hclears : s.cfg.quirkLogicVfReset = true) (x : Reg) (b : Byte) : (s.setLogic x b).reg VF = 0 := by
  rw [State.setLogic_reg, if_pos ⟨hclears, rfl⟩]

theorem State.setLogic_reg_self {x : Reg} (hx : ¬ (s.cfg.quirkLogicVfReset = true ∧ x = VF)) (b : Byte) :
    (s.setLogic x b).reg x = b := by
  rw [State.setLogic_reg, if_neg hx, if_pos rfl]

end

/-! ### Results and flags as numbers -/

/-- The carry as 8XY4's rule states it (41_alu.md R137). -/
theorem flagByte_carryOut (vx vy : Byte) : flagByte (carryOut vx vy) = if vx.toNat + vy.toNat > 255 then 1 else 0 := by
  simp only [flagByte, carryOut, decide_eq_true_eq, gt_iff_lt]

/-- No borrow as the rules of 8XY5 and 8XY7 state it (41_alu.md R138, R140). -/
theorem flagByte_noBorrow (a b : Byte) : flagByte (noBorrow a b) = if a.toNat ≥ b.toNat then 1 else 0 := by
  simp only [flagByte, noBorrow, decide_eq_true_eq, ge_iff_le]

theorem toNat_flagByte (b : Bool) : (flagByte b).toNat = b.toNat := by
  cases b <;> rfl

/-- The bit dropped on the right is the remainder by 2. -/
theorem toNat_flagByte_shiftedOutRight (b : Byte) : (flagByte (shiftedOutRight b)).toNat = b.toNat % 2 := by
  rw [toNat_flagByte, shiftedOutRight, BitVec.getLsbD, Nat.toNat_testBit, Nat.pow_zero, Nat.div_one]

/-- The bit dropped on the left is what a byte holds of 128s. -/
theorem toNat_flagByte_shiftedOutLeft (b : Byte) : (flagByte (shiftedOutLeft b)).toNat = b.toNat / 128 := by
  have hb := b.isLt
  rw [toNat_flagByte, shiftedOutLeft, BitVec.getLsbD, Nat.toNat_testBit]
  omega

/-- A difference of bytes is the integers' difference modulo 256. -/
theorem toNat_sub_eq_emod (a b : Byte) : ((a - b).toNat : Int) = ((a.toNat : Int) - b.toNat) % 256 := by
  have ha := a.isLt
  have hb := b.isLt
  rw [BitVec.toNat_sub]
  omega

/-! ### Loads, sums and differences -/

/-- Settles O12: each of the three is one write of VX. -/
theorem loadsAndAddConstantWriteVx : Obligations.LoadsAndAddConstantWriteVx := by
  unfold Obligations.LoadsAndAddConstantWriteVx
  intro s x y nn
  refine ⟨⟨_, rfl, s.setReg_reg_self x nn, rfl, frame_setReg s x _⟩, ⟨_, rfl, ?_, rfl, frame_setReg s x _⟩,
    ⟨_, rfl, s.setReg_reg_self x _, rfl, frame_setReg s x _⟩⟩
  rw [State.setReg_reg_self, BitVec.toNat_add]

/-- Settles O14: the sum is written first and the carry of the old operands after it. -/
theorem addSetsCarry : Obligations.AddSetsCarry := by
  unfold Obligations.AddSetsCarry
  intro s x y
  refine ⟨_, rfl, fun hx => ?_, ?_, rfl, frame_setRegThenFlag s x _ _⟩
  · rw [State.setRegThenFlag_reg_self s hx, BitVec.toNat_add]
  · rw [State.setRegThenFlag_reg_VF, flagByte_carryOut]

/-- 8XY5 and 8XY7 write one difference, with the operands in either order. -/
theorem setRegThenFlag_difference (s : State) (x : Reg) (a b : Byte) :
    (x ≠ VF → (((s.setRegThenFlag x (a - b) (noBorrow a b)).reg x).toNat : Int) = ((a.toNat : Int) - b.toNat) % 256) ∧
      (s.setRegThenFlag x (a - b) (noBorrow a b)).reg VF = if a.toNat ≥ b.toNat then 1 else 0 := by
  constructor
  · intro hx
    rw [State.setRegThenFlag_reg_self s hx, toNat_sub_eq_emod]
  · rw [State.setRegThenFlag_reg_VF, flagByte_noBorrow]

/-- Settles O15: the difference is written first and the flag of the old operands after it. -/
theorem subtractSetsNoBorrow : Obligations.SubtractSetsNoBorrow := by
  unfold Obligations.SubtractSetsNoBorrow
  intro s x y
  obtain ⟨hsub, hsubFlag⟩ := setRegThenFlag_difference s x (s.reg x) (s.reg y)
  obtain ⟨hsubn, hsubnFlag⟩ := setRegThenFlag_difference s x (s.reg y) (s.reg x)
  exact ⟨⟨_, rfl, hsub, hsubFlag, rfl, frame_setRegThenFlag s x _ _⟩,
    ⟨_, rfl, hsubn, hsubnFlag, rfl, frame_setRegThenFlag s x _ _⟩⟩

/-! ### Logic and shifts -/

/-- Settles O13: the result is bitwise, and where the quirk applies VF is cleared after it. -/
theorem logicWritesVxAndQuirkClearsVf : Obligations.LogicWritesVxAndQuirkClearsVf := by
  unfold Obligations.LogicWritesVxAndQuirkClearsVf
  intro s x y clears touched
  have hvf : ∀ b, clears → (s.setLogic x b).reg VF = 0 := fun b hclears => s.setLogic_reg_VF hclears x b
  have hpc : ∀ b, (s.setLogic x b).pc = s.pc := s.setLogic_pc x
  have hframe : ∀ b, Frame touched s (s.setLogic x b) := frame_setLogic s x
  refine ⟨⟨_, rfl, fun k _ hx => ?_, hvf _, hpc _, hframe _⟩, ⟨_, rfl, fun k _ hx => ?_, hvf _, hpc _, hframe _⟩,
    ⟨_, rfl, fun k _ hx => ?_, hvf _, hpc _, hframe _⟩⟩
  · rw [State.setLogic_reg_self s hx, BitVec.getLsbD_or]
  · rw [State.setLogic_reg_self s hx, BitVec.getLsbD_and]
  · rw [State.setLogic_reg_self s hx, BitVec.getLsbD_xor]

/-- Settles O16: the source is read before VX is written, and the bit shifted out of it is the last write. -/
theorem shiftsSetBitShiftedOut : Obligations.ShiftsSetBitShiftedOut := by
  unfold Obligations.ShiftsSetBitShiftedOut
  intro s x y src
  have hsrc : (s.shiftSource x y).toNat = src := rfl
  refine ⟨⟨_, rfl, fun hx => ?_, ?_, rfl, frame_setRegThenFlag s x _ _⟩,
    ⟨_, rfl, fun hx => ?_, ?_, rfl, frame_setRegThenFlag s x _ _⟩⟩
  · rw [State.setRegThenFlag_reg_self s hx, BitVec.toNat_ushiftRight, Nat.shiftRight_one, hsrc]
  · rw [State.setRegThenFlag_reg_VF, toNat_flagByte_shiftedOutRight, hsrc]
  · rw [State.setRegThenFlag_reg_self s hx, BitVec.toNat_shiftLeft, Nat.shiftLeft_eq, hsrc]
  · rw [State.setRegThenFlag_reg_VF, toNat_flagByte_shiftedOutLeft, hsrc]

/-! ### The random byte -/

theorem State.drawnByte_of_rnd {s : State} {b : Byte} {rest : List Byte} (h : s.rnd = b :: rest) : s.drawnByte = b := by
  simp only [State.drawnByte, h]

/-- Settles O17: the byte drawn is the one at the head of the queue where there is one, and the conjunction is the mask. -/
theorem randomByteUnderMask : Obligations.RandomByteUnderMask := by
  unfold Obligations.RandomByteUnderMask
  intro s x nn
  have hvx : (s.afterDraw.setReg x (s.drawnByte &&& nn)).reg x = s.drawnByte &&& nn := s.afterDraw.setReg_reg_self x _
  refine ⟨_, s.drawnByte, rfl, fun b rest hqueue => ?_, rfl, fun k _ => ?_, fun hzero => ?_, fun hones => ?_, rfl,
    frame_rnd s x _⟩
  · exact ⟨State.drawnByte_of_rnd hqueue, congrArg List.tail hqueue⟩
  · rw [hvx, BitVec.getLsbD_and]
  · rw [hvx, hzero]
    exact BitVec.and_zero
  · rw [hvx, hones]
    exact BitVec.and_allOnes

end Sys2Proof.Machine
end

section
/-! PROOFS. The display (42_display.md): 00E0, the two branches of DXYN, what the drawn sprite does to each cell and to VF, and the
statements that follow from them. -/

namespace Sys2Proof.Machine

/-- Settles O24: the display that 00E0 writes is the clear one, and the display is all it writes. -/
theorem clearDisplay : Obligations.ClearDisplay := by
  unfold Obligations.ClearDisplay
  exact fun s => ⟨_, rfl, fun Y X _ _ => Display.cell_clear Y X, rfl, frame_setDisplay s _⟩

/-! ### The branches of DXYN -/

/-- The canvas after a sprite of `rows` rows from Memory at I is drawn at (x0, y0) (42_display.md R172). -/
def State.spriteCanvas (s : State) (x0 y0 rows : Nat) : Canvas :=
  Canvas.drawRows ⟨s.display, false⟩ (fun r => s.readByte (s.base + r)) rows y0 x0

/-- The state with a canvas's display and, written last, its collision in VF (42_display.md R172). -/
def State.showCanvas (s : State) (cv : Canvas) : State :=
  (s.setDisplay cv.display).setReg VF (flagByte cv.collision)

section
variable {s : State} {x y : Reg} {n x0 y0 rows : Nat}

/-- No row to draw, or every drawn row's byte at or below 0xFFF: the sprite is drawn. -/
theorem exec_drw_of_readable (hrows : visibleRows n (anchorY (s.reg y)) = rows) (hread : rows = 0 ∨ s.base + rows ≤ 0x1000) :
    exec (.drw x y n) s = .next (s.showCanvas (s.spriteCanvas (anchorX (s.reg x)) (anchorY (s.reg y)) rows)) := by
  simp only [exec, execDrw, hrows, firstBadRead_eq_none.2 hread]
  rfl

/-- A drawn row's byte above 0xFFF: the fault at the lowest such address, before anything is drawn (20_memory.md R57). -/
theorem exec_drw_of_unreadable (hrows : visibleRows n (anchorY (s.reg y)) = rows) (hpos : 0 < rows)
    (hend : 0x1000 < s.base + rows) : exec (.drw x y n) s = .next (s.raiseMemory (max s.base 0x1000)) := by
  simp only [exec, execDrw, hrows, firstBadRead_eq_some.2 ⟨rfl, hend, hpos⟩]

/-- N counts only through the rows that fit above the bottom edge (42_display.md R173). -/
theorem exec_drw_congr {m : Nat} (hrows : visibleRows n (anchorY (s.reg y)) = visibleRows m (anchorY (s.reg y))) :
    exec (.drw x y n) s = exec (.drw x y m) s := by
  simp only [exec, execDrw, hrows]

/-- With no row the canvas keeps the display and no collision, so only VF is written (42_display.md R174). -/
theorem exec_drw_zero : exec (.drw x y 0) s = .next (s.setReg VF 0) :=
  exec_drw_of_readable (Nat.zero_min _) (.inl rfl)

/-! ### The sprite, cell by cell -/

/-- A set sprite bit as the drawing loops index it: bit 7 is the leftmost column (42_display.md R170). -/
theorem State.spriteBit_eq_getMsbD (s : State) (x0 y0 rows Y X : Nat) :
    s.spriteBit x0 y0 rows Y X =
      (decide (y0 ≤ Y ∧ Y < y0 + rows ∧ x0 ≤ X ∧ X < x0 + 8) && (s.readByte (s.base + (Y - y0))).getMsbD (X - x0)) := by
  by_cases hin : y0 ≤ Y ∧ Y < y0 + rows ∧ x0 ≤ X ∧ X < x0 + 8
  · rw [State.spriteBit, getMsbD_eq_div _ _ (by omega)]
  · rw [State.spriteBit, decide_eq_false hin, Bool.false_and, Bool.false_and]

theorem base_of_frame {f : Footprint} {t : State} (hframe : Frame f s t) (hi : ¬ f.index) : t.base = s.base :=
  congrArg BitVec.toNat (hframe.index hi)

/-- A sprite is read from I and Memory alone. -/
theorem spriteBit_of_frame {f : Footprint} {t : State} (hframe : Frame f s t) (hi : ¬ f.index) (hmem : ∀ a, ¬ f.mem a)
    (x0 y0 rows Y X : Nat) : t.spriteBit x0 y0 rows Y X = s.spriteBit x0 y0 rows Y X := by
  rw [State.spriteBit, base_of_frame hframe hi, hframe.mem _ (hmem _), State.spriteBit]

theorem cell_spriteCanvas (hy : y0 + rows ≤ 32) (hx : x0 < 64) (Y : Nat) {X : Nat} (hX : X < 64) :
    (s.spriteCanvas x0 y0 rows).display.cell Y X = (s.display.cell Y X ^^ s.spriteBit x0 y0 rows Y X) := by
  rw [State.spriteBit_eq_getMsbD]
  exact (Canvas.drawRows_spec _ _ rows y0 x0 hy hx).1 Y X hX

theorem collision_spriteCanvas (hy : y0 + rows ≤ 32) (hx : x0 < 64) :
    (s.spriteCanvas x0 y0 rows).collision = true ↔
      ∃ Y X, Y < 32 ∧ X < 64 ∧ s.spriteBit x0 y0 rows Y X = true ∧ s.display.cell Y X = true := by
  simp only [State.spriteBit_eq_getMsbD, Bool.and_eq_true, decide_eq_true_eq]
  refine (Canvas.drawRows_spec _ _ rows y0 x0 hy hx).2.trans ⟨?_, ?_⟩
  · rintro (hstart | ⟨Y, X, hX, hin, hbit, hlit⟩)
    · cases hstart
    · exact ⟨Y, X, by omega, hX, ⟨hin, hbit⟩, hlit⟩
  · rintro ⟨Y, X, -, hX, ⟨hin, hbit⟩, hlit⟩
    exact .inr ⟨Y, X, hX, hin, hbit, hlit⟩

/-! ### VF after a draw -/

theorem showCanvas_reg_VF (s : State) (cv : Canvas) : (s.showCanvas cv).reg VF = flagByte cv.collision :=
  State.setReg_reg_self _ VF _

theorem flagByte_eq_one_or_zero (b : Bool) : flagByte b = 1 ∨ flagByte b = 0 := by
  cases b
  · exact .inr rfl
  · exact .inl rfl

theorem flagByte_eq_one {b : Bool} : flagByte b = 1 ↔ b = true := by
  cases b <;> decide

end

/-! ### The statements about DXYN -/

/-- Settles O25, by the two branches of DXYN: the anchor lies on the screen and the visible rows end at or above its bottom edge,
so the loops flip the cells under the sprite. -/
theorem drawFlipsSpritePixels : Obligations.DrawFlipsSpritePixels := by
  unfold Obligations.DrawFlipsSpritePixels
  intro s x y n x0 y0 rows
  have hx : x0 < 64 := Nat.mod_lt _ (by decide)
  have hy0 : y0 < 32 := Nat.mod_lt _ (by decide)
  have hy : y0 + rows ≤ 32 := by omega
  have hrows : visibleRows n (anchorY (s.reg y)) = rows := rfl
  refine ⟨fun hread => ⟨_, exec_drw_of_readable hrows hread, fun Y X _ hX => cell_spriteCanvas hy hx Y hX, ?_, ?_, rfl,
    frame_drawn s _ _⟩, fun hpos hend => ⟨_, exec_drw_of_unreadable hrows hpos hend, takesFault_raiseMemory s ?_⟩⟩
  · rw [showCanvas_reg_VF]
    exact flagByte_eq_one_or_zero _
  · rw [showCanvas_reg_VF, flagByte_eq_one]
    exact collision_spriteCanvas hy hx
  · have hbase : s.base < 65536 := s.i.isLt
    omega

/-- Settles O26: an N that covers the rows that fit leaves the same visible rows, and N = 0 leaves none. -/
theorem drawClipsAndZeroRowsClearVf : Obligations.DrawClipsAndZeroRowsClearVf := by
  unfold Obligations.DrawClipsAndZeroRowsClearVf
  intro s x y n
  refine ⟨fun hcovers => exec_drw_congr ?_, ⟨_, exec_drw_zero, s.setReg_reg_self VF 0, rfl, frame_setReg s VF 0⟩⟩
  exact (Nat.min_eq_right hcovers).trans (Nat.min_self _).symm

/-- Settles O27, by O25 for both draws: the first leaves the anchor, I and Memory, so the second flips the same cells back, and
it finds lit the cells that the first one lit. -/
theorem drawTwiceRestoresDisplay : Obligations.DrawTwiceRestoresDisplay := by
  unfold Obligations.DrawTwiceRestoresDisplay
  intro s x y n hx hy x0 y0 rows hend
  obtain ⟨t, hdraw, hcell, -, -, -, hframe⟩ := (drawFlipsSpritePixels s x y n).1 (.inr hend)
  have hredraw := (drawFlipsSpritePixels t x y n).1
  have hbase := base_of_frame hframe not_false
  have hbit := spriteBit_of_frame hframe not_false fun _ => not_false
  simp only [hframe.regs x hx, hframe.regs y hy, hbase, hbit] at hredraw
  obtain ⟨u, hdraw', hcell', hflag, hcollision, -, -⟩ := hredraw (.inr hend)
  refine ⟨t, u, hdraw, hdraw', Display.ext_cell fun Y X hY hX => ?_, hflag, hcollision.trans ?_⟩
  · rw [hcell' Y X hY hX, hcell Y X hY hX, Bool.xor_assoc, Bool.xor_self, Bool.xor_false]
  · refine exists_congr fun Y => exists_congr fun X => and_congr_right fun hY => and_congr_right fun hX =>
      and_congr_right fun hset => ?_
    rw [hcell Y X hY hX, hset, Bool.xor_true, Bool.not_eq_true']

end Sys2Proof.Machine
end

section
/-! PROOFS. Keypad and timers (43_keypad_timers.md): the branches of EX9E, EXA1 and FX0A, the statements about them and the timer
moves, and a batch that waits for a key. -/

namespace Sys2Proof.Machine

/-! ### The key a register selects -/

theorem selectedKey_of_toNat_eq {vx : Byte} {k : Reg} (hk : vx.toNat = k.val) (policy : KeyIndex) :
    selectedKey policy vx = some k := by
  have hle : vx.toNat ≤ 0xF := hk ▸ Fin.le_last k
  rw [selectedKey, if_pos (.inl hle), hk, Fin.ofNat_val_eq_self]

/-- Under `KEY_INDEX` = mask4 the low nibble selects (43_keypad_timers.md R190). -/
theorem selectedKey_mask4 {vx : Byte} {k : Reg} (hk : vx.toNat % 16 = k.val) : selectedKey .mask4 vx = some k := by
  rw [selectedKey, if_pos (.inr rfl)]
  exact congrArg some (Fin.ext hk)

/-- Under `KEY_INDEX` = fault a value above 0xF selects no key (43_keypad_timers.md R190). -/
theorem selectedKey_fault {vx : Byte} (hlarge : 0xF < vx.toNat) : selectedKey .fault vx = none :=
  if_neg (not_or.2 ⟨Nat.not_le.2 hlarge, nofun⟩)

/-! ### The branches of EX9E, EXA1 and FX0A -/

section
variable {s : State} {x k : Reg}

theorem exec_skp_of_selectedKey (hk : selectedKey s.cfg.keyIndex (s.reg x) = some k) :
    exec (.skp x) s = .next (s.skipIf s.keys[k]) := by
  simp only [exec, execSkp, hk]

theorem exec_sknp_of_selectedKey (hk : selectedKey s.cfg.keyIndex (s.reg x) = some k) :
    exec (.sknp x) s = .next (s.skipIf (!s.keys[k])) := by
  simp only [exec, execSknp, hk]

theorem exec_skp_of_none_selected (hnone : selectedKey s.cfg.keyIndex (s.reg x) = none) :
    exec (.skp x) s = .next (s.raise .keyIndexFault ((s.reg x).setWidth 16)) := by
  simp only [exec, execSkp, hnone]

theorem exec_sknp_of_none_selected (hnone : selectedKey s.cfg.keyIndex (s.reg x) = none) :
    exec (.sknp x) s = .next (s.raise .keyIndexFault ((s.reg x).setWidth 16)) := by
  simp only [exec, execSknp, hnone]

theorem exec_ldKey_of_lowestKey (hk : lowestKey s.keys = some k) :
    exec (.ldKey x) s = .next (s.setReg x (BitVec.ofNat 8 k.val)) := by
  simp only [exec, execLdKey, hk]

theorem exec_ldKey_of_none_pressed (hnone : ∀ k : Reg, s.keys[k] = false) :
    exec (.ldKey x) s = .next (s.setPc (s.pc - 2)) := by
  simp only [exec, execLdKey, lowestKey_eq_none.2 hnone]

/-- Once VX selects a key, EX9E and EXA1 are skips on its level and nothing else. -/
theorem keySkips_of_selectedKey (hk : selectedKey s.cfg.keyIndex (s.reg x) = some k) :
    (∃ t, exec (.skp x) s = .next t ∧ t.pc = (if s.keys[k] = true then s.pc + 2 else s.pc) ∧ Frame {} s t) ∧
    (∃ t, exec (.sknp x) s = .next t ∧ t.pc = (if s.keys[k] = true then s.pc else s.pc + 2) ∧ Frame {} s t) := by
  refine ⟨⟨_, exec_skp_of_selectedKey hk, State.skipIf_pc s _, frame_skipIf s _⟩,
    ⟨_, exec_sknp_of_selectedKey hk, ?_, frame_skipIf s _⟩⟩
  rw [State.skipIf_pc]
  cases s.keys[k] <;> rfl

end

/-- The fault of EX9E and EXA1 reports the whole of VX (43_keypad_timers.md R190). -/
theorem takesFault_keyIndex (s : State) (x : Reg) :
    TakesFault .keyIndexFault (s.reg x).toNat s (s.raise .keyIndexFault ((s.reg x).setWidth 16)) := by
  have hfault := takesFault_raise s .keyIndexFault ((s.reg x).setWidth 16)
  rwa [BitVec.toNat_setWidth_of_le (by decide)] at hfault

/-! ### One execution -/

/-- Settles O29: a value up to 0xF selects its key under either policy, and a larger one selects none under `KEY_INDEX` = fault. -/
theorem keySkips : Obligations.KeySkips := by
  unfold Obligations.KeySkips
  intro s x k
  refine ⟨fun hk => keySkips_of_selectedKey (selectedKey_of_toNat_eq hk _), fun hlarge hpolicy => ?_⟩
  have hnone : selectedKey s.cfg.keyIndex (s.reg x) = none := hpolicy ▸ selectedKey_fault hlarge
  exact ⟨⟨_, exec_skp_of_none_selected hnone, takesFault_keyIndex s x⟩,
    ⟨_, exec_sknp_of_none_selected hnone, takesFault_keyIndex s x⟩⟩

/-- Settles O30: under mask4 every value selects a key. -/
theorem keySkipsUnderMask4 : Obligations.KeySkipsUnderMask4 := by
  unfold Obligations.KeySkipsUnderMask4
  intro s x k hpolicy hk
  exact keySkips_of_selectedKey (hpolicy ▸ selectedKey_mask4 hk)

/-- The sound output is on exactly while ST is not 0 (60_exceptions.md R257). -/
theorem State.soundActive_iff {s : State} : s.soundActive = true ↔ s.st ≠ 0 :=
  decide_eq_true_iff.trans (BitVec.pos_iff_ne_zero s.st)

/-- Settles O31: each of the three is one write, and the sound output is a function of the ST that FX18 writes. -/
theorem timerRegisterMoves : Obligations.TimerRegisterMoves := by
  unfold Obligations.TimerRegisterMoves
  intro s x
  exact ⟨⟨_, rfl, s.setReg_reg_self x s.dt, rfl, frame_setReg s x _⟩, ⟨_, rfl, rfl, rfl, frame_setDt s _⟩,
    ⟨_, rfl, rfl, State.soundActive_iff, rfl, frame_setSt s _⟩⟩

/-- Settles O32, by the two branches of FX0A: the lowest pressed key, or none. -/
theorem keyWaitTakesLowestKey : Obligations.KeyWaitTakesLowestKey := by
  unfold Obligations.KeyWaitTakesLowestKey
  intro s x
  refine ⟨fun k hpressed hlower => ?_, fun hnone => ⟨_, exec_ldKey_of_none_pressed hnone, rfl, frame_setPc s _⟩⟩
  have hvalue : (BitVec.ofNat 8 k.val).toNat = k.val := Nat.mod_eq_of_lt (k.isLt.trans (by decide))
  refine ⟨_, exec_ldKey_of_lowestKey (lowestKey_eq_some.2 ⟨hpressed, hlower⟩), ?_, rfl, frame_setReg s x _⟩
  rw [State.setReg_reg_self, hvalue]

/-! ### A batch that waits for a key -/

/-- A run goes on from the next state of its first step. -/
theorem run_succ_of_step {M : Host.Core} {s t : M.State} (hstep : M.step s = .next t) (k : Nat) : M.run (k + 1) s = M.run k t := by
  rw [Host.Core.run, hstep]

/-- A slot in which FX0A finds no key is used up: the fetch moves PC past FX0A and the execute phase moves it back. -/
theorem step_of_keyWait {s : State} {x : Reg} {left : Nat} (hrun : s.rs = .running) (hslot : s.phase = .batch (left + 1))
    (hwaits : s.Decodes (.ldKey x)) (hnone : ∀ k : Reg, s.keys[k] = false) : step s = .next { s with phase := .batch left } := by
  obtain ⟨hpc, hd⟩ := hwaits
  have hback : s.pc + 2 - 2 = s.pc := BitVec.add_sub_cancel s.pc 2
  have hexec : exec (.ldKey x) (s.afterFetch left) = .next ((s.afterFetch left).setPc (s.pc + 2 - 2)) :=
    exec_ldKey_of_none_pressed hnone
  rw [step_batch hrun hslot, stepInstr_of_instr (State.fetchFails_eq_false.2 hpc) hd, hexec, hback]
  rfl

/-- Settles O33, by induction on the slots left: each slot is used up and leaves a state that waits as before. -/
theorem keyWaitHoldsTheBatch : Obligations.KeyWaitHoldsTheBatch := by
  unfold Obligations.KeyWaitHoldsTheBatch
  intro s x left hrun hslot hpc hd hnone
  induction left generalizing s with
  | zero =>
    rw [← hslot]
    rfl
  | succ left ih =>
    calc Sys2Proof.core.run (left + 1) s = Sys2Proof.core.run left { s with phase := .batch left } :=
        run_succ_of_step (M := Sys2Proof.core) (step_of_keyWait hrun hslot ⟨hpc, hd⟩ hnone) left
      _ = .next { s with phase := .batch 0 } := ih { s with phase := .batch left } hrun rfl hpc hd hnone

end Sys2Proof.Machine
end

section
/-! PROOFS. Index register and memory transfers (44_index_memory.md): the writes to I, the branches of FX33, FX55 and FX65, and the
statements that follow from them. -/

namespace Sys2Proof.Machine

/-! ### The checks of a run of stores -/

/-- A run that begins in a font that may not be written fails at its first address (20_memory.md R56, R57). -/
theorem firstBadWrite_of_font {b n : Nat} (hpos : 0 < n) (hb : b ≤ 0x4F) : firstBadWrite .fault b n = some b := by
  refine find?_range'_eq_some.2 ⟨?_, Nat.le_refl b, Nat.lt_add_of_pos_right hpos, fun k hk hk' => absurd hk' (Nat.not_lt.2 hk)⟩
  simp [writeFails, hb]

/-- A run that begins past the font and ends above 0xFFF fails at its lowest address above 0xFFF (20_memory.md R56, R57). -/
theorem firstBadWrite_past_end {fw : FontWrite} {b n : Nat} (hpos : 0 < n) (hb : 0x4F < b) (hend : 0x1000 < b + n) :
    firstBadWrite fw b n = some (max b 0x1000) := by
  refine find?_range'_eq_some.2 ⟨?_, Nat.le_max_left _ _, by omega, fun k hk hk' => ?_⟩
  · have hhigh : 0xFFF < max b 0x1000 := by omega
    simp [writeFails, hhigh]
  · have hlow : k ≤ 0xFFF := by omega
    have hpast : 0x4F < k := hb.trans_le hk
    simp [writeFails, hlow, hpast]

/-! ### A run of stores at I -/

/-- What FX33 and FX55 have in common: the bytes go to I, I + 1, ... when every address passes its check (20_memory.md R57). -/
def State.storeAtIndex (s : State) (bs : List Byte) : Host.Outcome State Fault Refusal :=
  match firstBadWrite s.cfg.fontWrite s.base bs.length with
  | some a => .next (s.raiseMemory a)
  | none => .next (s.storeBytes s.base bs)

theorem exec_ldBcd (x : Reg) (s : State) : exec (.ldBcd x) s = s.storeAtIndex (bcdDigits (s.reg x)) := rfl

theorem exec_storeRegs (x : Reg) (s : State) : exec (.storeRegs x) s = s.storeAtIndex (s.regRange x) := by
  rw [State.storeAtIndex, regRange_length]
  rfl

section
variable {s : State} {bs : List Byte}

/-- A run that ends at or below 0xFFF and is not in a font that may not be written is stored. -/
theorem storeAtIndex_of_writable (hend : s.base + bs.length ≤ 0x1000) (hfont : s.cfg.fontWrite = .fault → 0x4F < s.base) :
    s.storeAtIndex bs = .next (s.storeBytes s.base bs) := by
  rw [State.storeAtIndex, firstBadWrite_eq_none.2 (.inr ⟨hend, hfont⟩)]

theorem storeAtIndex_faults {a : Nat} (hbad : firstBadWrite s.cfg.fontWrite s.base bs.length = some a) (ha : a < 65536) :
    ∃ t, s.storeAtIndex bs = .next t ∧ TakesFault .memoryFault a s t := by
  rw [State.storeAtIndex, hbad]
  exact ⟨_, rfl, takesFault_raiseMemory s ha⟩

/-- A run in a font that may not be written faults at I. -/
theorem storeAtIndex_faults_in_font (hpos : 0 < bs.length) (hb : s.base ≤ 0x4F) (hfont : s.cfg.fontWrite = .fault) :
    ∃ t, s.storeAtIndex bs = .next t ∧ TakesFault .memoryFault s.base s t :=
  storeAtIndex_faults (hfont ▸ firstBadWrite_of_font hpos hb) s.i.isLt

/-- A run past the end of Memory, too short to begin in the font, faults at its lowest address above 0xFFF. -/
theorem storeAtIndex_faults_past_end (hpos : 0 < bs.length) (hlen : bs.length ≤ 16) (hend : 0x1000 < s.base + bs.length) :
    ∃ t, s.storeAtIndex bs = .next t ∧ TakesFault .memoryFault (max s.base 0x1000) s t :=
  storeAtIndex_faults (firstBadWrite_past_end hpos (by omega) hend) (Nat.max_lt.2 ⟨s.i.isLt, by decide⟩)

theorem State.readByte_storeBytes_add (a : Nat) {k : Nat} (hk : k < bs.length) :
    (s.storeBytes a bs).readByte (a + k) = bs[k] := by
  rw [State.readByte_storeBytes, dif_pos ⟨Nat.le_add_right a k, Nat.add_lt_add_left hk a⟩]
  simp only [Nat.add_sub_cancel_left]

end

/-! ### The statements about FX33 and FX55 -/

theorem bcdDigits_length (b : Byte) : (bcdDigits b).length = 3 := rfl

/-- Each digit of a byte fits a byte, so storing it loses nothing. -/
theorem map_toNat_bcdDigits (b : Byte) :
    (bcdDigits b).map BitVec.toNat = [b.toNat / 100, b.toNat / 10 % 10, b.toNat % 10] := by
  have hb : b.toNat < 256 := b.isLt
  have hhundreds : b.toNat / 100 % 256 = b.toNat / 100 := by omega
  have htens : b.toNat / 10 % 10 % 256 = b.toNat / 10 % 10 := by omega
  have hunits : b.toNat % 10 % 256 = b.toNat % 10 := by omega
  simp [bcdDigits, hhundreds, htens, hunits]

theorem readByte_store_bcdDigits (s : State) (a : Nat) (b : Byte) {k : Nat} (hk : k < 3) :
    ((s.storeBytes a (bcdDigits b)).readByte (a + k)).toNat = [b.toNat / 100, b.toNat / 10 % 10, b.toNat % 10][k] := by
  have hlt : k < (bcdDigits b).length := hk.trans_eq (bcdDigits_length b).symm
  rw [State.readByte_storeBytes_add a hlt]
  simp only [← map_toNat_bcdDigits, List.getElem_map]

/-- Settles O35, by the outcomes of a run of three stores: allowed, past the end of Memory, or in the font. The byte stored at
I + k is digit k. -/
theorem storeDecimalDigits : Obligations.StoreDecimalDigits := by
  unfold Obligations.StoreDecimalDigits
  intro s x
  rw [Faults, Faults, exec_ldBcd]
  have hlen : (bcdDigits (s.reg x)).length = 3 := bcdDigits_length _
  refine ⟨fun hend hfont => ⟨_, storeAtIndex_of_writable (by omega) hfont, ?_⟩,
    fun hend => storeAtIndex_faults_past_end (by omega) (by omega) (by omega),
    fun hb hfont => storeAtIndex_faults_in_font (by omega) hb hfont⟩
  have hdigit {k : Nat} (hk : k < 3) := readByte_store_bcdDigits s s.base (s.reg x) hk
  exact ⟨hdigit (by decide : 0 < 3), hdigit (by decide : 1 < 3), hdigit (by decide : 2 < 3), State.storeBytes_pc s _ _,
    frame_storeBytes s s.base (bcdDigits (s.reg x))⟩

/-- Settles O36, by the same outcomes of a run of X + 1 stores. The byte stored at I + k is Vk. -/
theorem storeRegisterRange : Obligations.StoreRegisterRange := by
  unfold Obligations.StoreRegisterRange
  intro s x
  rw [Faults, Faults, exec_storeRegs]
  have hlen : (s.regRange x).length = x.val + 1 := regRange_length s x
  have hx : x.val < 16 := x.isLt
  refine ⟨fun hend hfont => ⟨_, storeAtIndex_of_writable (by omega) hfont, fun k hk => s.readByte_storeRegRange hk, ?_, ?_⟩,
    fun hend => storeAtIndex_faults_past_end (by omega) (by omega) (by omega),
    fun hb hfont => storeAtIndex_faults_in_font (by omega) hb hfont⟩
  · exact State.storeBytes_pc s _ _
  · exact hlen ▸ frame_storeBytes s s.base _

/-! ### The statements about FX65 -/

/-- The k-th register of V0..VX comes from Memory at I + k (44_index_memory.md R216). -/
theorem State.setRegs_loadedRegs_reg {s : State} {x k : Reg} (hk : k ≤ x) :
    (s.setRegs (s.loadedRegs x)).reg k = s.readByte (s.base + k.val) := by
  simp [State.reg, State.loadedRegs, hk]

section
variable {s : State} {x : Reg}

theorem exec_loadRegs_of_readable (hend : s.base + x.val ≤ 0xFFF) :
    exec (.loadRegs x) s = .next (s.setRegs (s.loadedRegs x)) := by
  have hok : firstBadRead s.base (rangeCount x) = none := firstBadRead_eq_none.2 (.inr (Nat.succ_le_succ hend))
  simp only [exec, execLoadRegs, hok]

theorem exec_loadRegs_of_unreadable (hend : 0xFFF < s.base + x.val) :
    exec (.loadRegs x) s = .next (s.raiseMemory (max s.base 0x1000)) := by
  have hbad : firstBadRead s.base (rangeCount x) = some (max s.base 0x1000) :=
    firstBadRead_eq_some.2 ⟨rfl, Nat.succ_lt_succ hend, Nat.succ_pos _⟩
  simp only [exec, execLoadRegs, hbad]

end

/-- Settles O37, by the two branches of FX65: the run of X + 1 reads ends at or below 0xFFF, or not. -/
theorem loadRegisterRange : Obligations.LoadRegisterRange := by
  unfold Obligations.LoadRegisterRange
  intro s x
  refine ⟨fun hend => ⟨_, exec_loadRegs_of_readable hend, fun k hk => State.setRegs_loadedRegs_reg hk, rfl,
      frame_loadedRegs s x⟩,
    fun hend => ⟨_, exec_loadRegs_of_unreadable hend, takesFault_raiseMemory s ?_⟩⟩
  exact Nat.max_lt.2 ⟨s.i.isLt, by decide⟩

/-- Settles O38, by O36 and O37: FX55 leaves I, so FX65 reads V0..VX from where they were stored. -/
theorem storeThenLoadGivesBack : Obligations.StoreThenLoadGivesBack := by
  unfold Obligations.StoreThenLoadGivesBack
  intro s x vs hend hfont
  obtain ⟨t, hstore, hstored, -, hframe⟩ := (storeRegisterRange s x).1 hend hfont
  have hbase : ({ t with v := vs } : State).base = s.base := base_of_frame (t := t) hframe not_false
  have hload := (loadRegisterRange { t with v := vs } x).1
  rw [hbase] at hload
  obtain ⟨u, hload, hloaded, -, hframe'⟩ := hload hend
  refine ⟨t, u, hstore, hload, fun k hk => (hloaded k hk).trans (hstored k hk), fun k hk => ?_, ?_⟩
  · exact hframe'.regs k (Fin.not_le.2 hk)
  · exact (hframe'.index not_false).trans (hframe.index not_false)

/-! ### The statement about writes to I -/

theorem indexValue_wrap12_toNat (v : Nat) : (indexValue .wrap12 v).toNat = v % 0x1000 := by
  simp only [indexValue, BitVec.toNat_ofNat]
  omega

theorem indexValue_clamp12_toNat (v : Nat) : (indexValue .clamp12 v).toNat = min v 0xFFF := by
  simp only [indexValue, BitVec.toNat_ofNat]
  omega

/-- Five times a byte fits I, so FX29 never wraps (44_index_memory.md R213). -/
theorem glyphAddress_toNat (b : Byte) : (glyphAddress b).toNat = b.toNat * 5 := by
  have hb : b.toNat < 256 := b.isLt
  rw [glyphAddress, BitVec.toNat_ofNat, Nat.mod_eq_of_lt (by omega)]

/-- Settles O34: each of the three is one write to I, and FX1E's value is the sum under either overflow policy. -/
theorem indexRegisterWrites : Obligations.IndexRegisterWrites := by
  unfold Obligations.IndexRegisterWrites
  intro s x nnn
  refine ⟨⟨_, rfl, rfl, rfl, frame_setI s nnn⟩, ⟨_, rfl, ?_, rfl, frame_setI s _⟩,
    ⟨_, rfl, glyphAddress_toNat _, rfl, frame_setI s _⟩⟩
  rw [State.setI_i]
  cases s.cfg.iOverflow with
  | wrap12 => exact indexValue_wrap12_toNat _
  | clamp12 => exact indexValue_clamp12_toNat _

end Sys2Proof.Machine
end

section
/-! PROOFS. Faults of the execute phase (60_exceptions.md R230 to R233): they are precise, each instruction has its own, and none
stops the model. -/

namespace Sys2Proof.Machine

/-- An execute phase that changes FAULT has raised its instruction's own fault and written nothing else. -/
theorem exec_raises_of_fault_ne {i : Instr} {s t : State} (h : exec i s = .next t) (hne : t.fault ≠ s.fault) :
    ∃ info, ownFault i ≠ .none ∧ t = s.raise (ownFault i) info := by
  obtain hraise | hframe := exec_next h
  · exact hraise
  · exact absurd (hframe.fault (by rw [State.footprintOf_fault]; exact not_false)) hne

/-- Settles O41: a fault is raised by fault entry alone. -/
theorem executeFaultsArePrecise : Obligations.ExecuteFaultsArePrecise := by
  unfold Obligations.ExecuteFaultsArePrecise
  intro i s t h hne
  obtain ⟨info, hfault, rfl⟩ := exec_raises_of_fault_ne h hne
  exact ⟨ownFault i, info.toNat, hfault, takesFault_raise s _ info⟩

/-- Settles O42: FAULT then holds the instruction's own fault, and `ownFault` lists those of the statement. -/
theorem eachInstructionRaisesItsOwnFault : Obligations.EachInstructionRaisesItsOwnFault := by
  unfold Obligations.EachInstructionRaisesItsOwnFault
  intro i s t hclear h hfault
  obtain ⟨info, -, rfl⟩ := exec_raises_of_fault_ne h (hclear ▸ hfault)
  rw [State.raise_fault]
  cases i <;> rfl

/-- Settles O43: the invariant gives the call stack STACK_DEPTH slots and keeps SP within them. -/
theorem noInstructionStops : Obligations.NoInstructionStops := by
  unfold Obligations.NoInstructionStops
  exact fun i s hinv => exec_answers hinv.slotCount hinv.spRange i

end Sys2Proof.Machine
end

section
/-! PROOFS. What a program can observe of the keypad and the timers (60_exceptions.md R236): an instruction that does not use an
input does the same whatever that input holds. -/

namespace Sys2Proof.Machine

/-! ### The branches that stop or depend on a parameter -/

section
variable {s : State}

theorem State.setLogic_of_quirk (hquirk : s.cfg.quirkLogicVfReset = true) (x : Reg) (b : Byte) :
    s.setLogic x b = (s.setReg x b).setReg VF 0 := if_pos hquirk

theorem State.setLogic_of_no_quirk (hquirk : ¬ s.cfg.quirkLogicVfReset = true) (x : Reg) (b : Byte) :
    s.setLogic x b = s.setReg x b := if_neg hquirk

theorem exec_ret_of_no_slot (hpos : 0 < s.sp) (htop : s.topSlot = none) : exec .ret s = .fault .noSuchStackSlot := by
  simp only [exec, execRet, if_neg (Nat.ne_of_gt hpos), htop]

theorem exec_call_of_no_slot (hroom : s.sp < s.cfg.stackDepth) (hslot : s.slots.length ≤ s.sp) (nnn : Word) :
    exec (.call nnn) s = .fault .noSuchStackSlot := by
  simp only [exec, execCall, if_neg (Nat.not_le.2 hroom), if_neg (Nat.not_lt.2 hslot)]

end

/-! ### A state with other inputs -/

/-- The state with the keypad, DT and ST replaced by functions of themselves, `id` for an input that is kept. -/
def State.mapInputs (k : Keypad → Keypad) (d e : Byte → Byte) (s : State) : State :=
  { s with keys := k s.keys, dt := d s.dt, st := e s.st }

/-- EX9E, EXA1 and FX0A read the keypad (43_keypad_timers.md R191, R192, R196). -/
def UsesKeys (i : Instr) : Prop := ∃ x, i = .skp x ∨ i = .sknp x ∨ i = .ldKey x

/-- FX07 reads DT and FX15 writes it (43_keypad_timers.md R193, R194). -/
def UsesDt (i : Instr) : Prop := ∃ x, i = .ldFromDt x ∨ i = .ldToDt x

/-- FX18 writes ST (43_keypad_timers.md R195). -/
def UsesSt (i : Instr) : Prop := ∃ x, i = .ldToSt x

section
variable (k : Keypad → Keypad) (d e : Byte → Byte) (s : State)

@[simp] theorem State.mapInputs_cfg : (s.mapInputs k d e).cfg = s.cfg := rfl
@[simp] theorem State.mapInputs_keys : (s.mapInputs k d e).keys = k s.keys := rfl
@[simp] theorem State.mapInputs_reg (x : Reg) : (s.mapInputs k d e).reg x = s.reg x := rfl
@[simp] theorem State.mapInputs_base : (s.mapInputs k d e).base = s.base := rfl

theorem State.skipIf_mapInputs (c : Bool) : (s.mapInputs k d e).skipIf c = (s.skipIf c).mapInputs k d e := by
  cases c <;> rfl

theorem State.setLogic_mapInputs (x : Reg) (b : Byte) :
    (s.mapInputs k d e).setLogic x b = (s.setLogic x b).mapInputs k d e := by
  by_cases hquirk : s.cfg.quirkLogicVfReset = true
  · rw [State.setLogic_of_quirk hquirk, State.setLogic_of_quirk (s := s.mapInputs k d e) hquirk]
    rfl
  · rw [State.setLogic_of_no_quirk hquirk, State.setLogic_of_no_quirk (s := s.mapInputs k d e) hquirk]
    rfl

theorem State.storeBytes_mapInputs (a : Nat) (bs : List Byte) :
    (s.mapInputs k d e).storeBytes a bs = (s.storeBytes a bs).mapInputs k d e := by
  induction bs generalizing s a with
  | nil => rfl
  | cons b bs ih => exact ih (s.writeByte a b) (a + 1)

theorem State.storeAtIndex_mapInputs (bs : List Byte) :
    (s.mapInputs k d e).storeAtIndex bs = mapNext (State.mapInputs k d e) (s.storeAtIndex bs) := by
  simp only [State.storeAtIndex, State.mapInputs_cfg, State.mapInputs_base, State.storeBytes_mapInputs]
  split <;> rfl

theorem exec_ret_mapInputs : exec .ret (s.mapInputs k d e) = mapNext (State.mapInputs k d e) (exec .ret s) := by
  obtain hempty | hpos := Nat.eq_zero_or_pos s.sp
  · rw [exec_ret_of_empty hempty, exec_ret_of_empty (s := s.mapInputs k d e) hempty]
    rfl
  · cases htop : s.topSlot with
    | some w =>
      rw [exec_ret_of_topSlot hpos htop, exec_ret_of_topSlot (s := s.mapInputs k d e) hpos htop]
      rfl
    | none =>
      rw [exec_ret_of_no_slot hpos htop, exec_ret_of_no_slot (s := s.mapInputs k d e) hpos htop]
      rfl

theorem exec_call_mapInputs (nnn : Word) :
    exec (.call nnn) (s.mapInputs k d e) = mapNext (State.mapInputs k d e) (exec (.call nnn) s) := by
  obtain hroom | hfull := Nat.lt_or_ge s.sp s.cfg.stackDepth
  · obtain hslot | hnone := Nat.lt_or_ge s.sp s.slots.length
    · rw [exec_call_of_room hroom hslot, exec_call_of_room (s := s.mapInputs k d e) hroom hslot]
      rfl
    · rw [exec_call_of_no_slot hroom hnone, exec_call_of_no_slot (s := s.mapInputs k d e) hroom hnone]
      rfl
  · rw [exec_call_of_full hfull, exec_call_of_full (s := s.mapInputs k d e) hfull]
    rfl

end

/-! ### The execute phase on a state with other inputs -/

/-- The execute phase does not see a change of the inputs that the instruction does not use, and leaves them so changed. -/
theorem exec_mapInputs {i : Instr} {k : Keypad → Keypad} {d e : Byte → Byte} (hkeys : UsesKeys i → k = id)
    (hdt : UsesDt i → d = id) (hst : UsesSt i → e = id) (s : State) :
    exec i (s.mapInputs k d e) = mapNext (State.mapInputs k d e) (exec i s) := by
  cases i
  case seImm | sneImm | seReg | sneReg => exact congrArg Host.Outcome.next (State.skipIf_mapInputs k d e s _)
  case orReg | andReg | xorReg => exact congrArg Host.Outcome.next (State.setLogic_mapInputs k d e s _ _)
  case ldFromDt x => cases hdt ⟨x, .inl rfl⟩; rfl
  case ldToDt x => cases hdt ⟨x, .inr rfl⟩; rfl
  case ldToSt x => cases hst ⟨x, rfl⟩; rfl
  case skp | sknp | ldKey =>
    cases hkeys (by simp [UsesKeys])
    simp only [exec, execSkp, execSknp, execLdKey, State.mapInputs_cfg, State.mapInputs_reg, State.mapInputs_keys,
      State.skipIf_mapInputs, id]
    split <;> rfl
  case ret => exact exec_ret_mapInputs k d e s
  case call nnn => exact exec_call_mapInputs k d e s nnn
  case drw =>
    simp only [exec, execDrw, State.mapInputs_reg, State.mapInputs_base]
    split <;> rfl
  case ldBcd | storeRegs =>
    simp only [exec_ldBcd, exec_storeRegs]
    exact State.storeAtIndex_mapInputs k d e s _
  case loadRegs =>
    simp only [exec, execLoadRegs, State.mapInputs_base]
    split <;> rfl
  all_goals rfl

theorem mapNext_mapNext (f g : State → State) (o : Host.Outcome State Fault Refusal) :
    mapNext f (mapNext g o) = mapNext (fun s => f (g s)) o := by
  cases o <;> rfl

/-- Settles O46: an instruction does not see the input it does not use. FX15 and FX18 use their timer only to write it, so for
them the states after it agree on everything else. -/
theorem inputsAreSeenOnlyByTheirInstructions : Obligations.InputsAreSeenOnlyByTheirInstructions := by
  unfold Obligations.InputsAreSeenOnlyByTheirInstructions
  intro i s
  refine ⟨fun keys hskp hsknp hldKey => ?_, fun dt hldFromDt => ?_, fun st => ?_⟩
  · have hunused : ¬ UsesKeys i := by
      rintro ⟨x, hx | hx | hx⟩
      · exact hskp x hx
      · exact hsknp x hx
      · exact hldKey x hx
    exact exec_mapInputs (k := fun _ => keys) (d := id) (e := id) hunused.elim (fun _ => rfl) (fun _ => rfl) s
  · by_cases hwrites : ∃ x, i = .ldToDt x
    · obtain ⟨x, rfl⟩ := hwrites
      rfl
    · have hunused : ¬ UsesDt i := by
        rintro ⟨x, hx | hx⟩
        · exact hldFromDt x hx
        · exact hwrites ⟨x, hx⟩
      have hexec := exec_mapInputs (k := id) (d := fun _ => dt) (e := id) (fun _ => rfl) hunused.elim (fun _ => rfl) s
      exact (congrArg _ hexec).trans (mapNext_mapNext _ _ _)
  · by_cases hwrites : UsesSt i
    · obtain ⟨x, rfl⟩ := hwrites
      rfl
    · have hexec := exec_mapInputs (k := id) (d := id) (e := fun _ => st) (fun _ => rfl) (fun _ => rfl) hwrites.elim s
      exact (congrArg _ hexec).trans (mapNext_mapNext _ _ _)

end Sys2Proof.Machine
end

section
/-! PROOFS. The frame scheduler (60_exceptions.md R240 to R251): the run state under a poll, the actions that start and end a
frame, and the slots of a batch. -/

namespace Sys2Proof.Machine

/-! ### The run state under a poll -/

theorem RunState.toggle_toggle (r : RunState) : r.toggle.toggle = r := by
  cases r <;> rfl

/-- Two toggles cancel, so only the parity of their number counts (60_exceptions.md R244). -/
theorem RunState.applyToggles_eq (n : Nat) (r : RunState) : r.applyToggles n = if n % 2 = 0 then r else r.toggle := by
  induction n generalizing r with
  | zero => rfl
  | succ n ih =>
    rw [RunState.applyToggles, ih, RunState.toggle_toggle]
    obtain hn | hn := Nat.mod_two_eq_zero_or_one n
    · rw [if_pos hn, if_neg (by omega)]
    · rw [if_neg (by omega), if_pos (by omega)]

theorem RunState.afterPoll_of_quit {p : Poll} (hquit : p.quit = true) (r : RunState) : r.afterPoll p = r.onQuit := if_pos hquit

theorem RunState.afterPoll_of_no_quit {p : Poll} (hquit : p.quit = false) (r : RunState) :
    r.afterPoll p = if p.pauseToggles % 2 = 0 then r else r.toggle := by
  simp only [RunState.afterPoll, hquit, Bool.false_eq_true, if_false, RunState.applyToggles_eq]

/-- A terminal run state is kept by a quit and by any number of toggles (60_exceptions.md R243). -/
theorem RunState.afterPoll_terminal {r : RunState} (hr : r = .quit ∨ r = .faulted) (p : Poll) : r.afterPoll p = r := by
  cases hquit : p.quit with
  | true => rw [RunState.afterPoll_of_quit hquit]; obtain rfl | rfl := hr <;> rfl
  | false => rw [RunState.afterPoll_of_no_quit hquit]; obtain rfl | rfl := hr <;> exact ite_self _

/-- Settles O47, by the quit flag and the parity of the toggles. -/
theorem pollMovesRunState : Obligations.PollMovesRunState := by
  unfold Obligations.PollMovesRunState
  intro p r
  refine ⟨fun hr => RunState.afterPoll_terminal hr p, fun hr hquit => ?_, fun hquit heven => ?_, fun hquit hodd => ?_⟩
  · rw [RunState.afterPoll_of_quit hquit]
    obtain rfl | rfl := hr <;> rfl
  · rw [RunState.afterPoll_of_no_quit hquit, if_pos heven]
  · rw [RunState.afterPoll_of_no_quit hquit, if_neg (by omega)]
    exact ⟨fun hr => hr ▸ rfl, fun hr => hr ▸ rfl⟩

/-! ### The start and the end of a frame -/

theorem State.nextPoll_of_polls {s : State} {p : Poll} {rest : List Poll} (h : s.polls = p :: rest) : s.nextPoll = p := by
  simp only [State.nextPoll, h]

/-- The step polls in PAUSED, and in RUNNING where a frame starts (60_exceptions.md R245, R249). -/
theorem step_poll {s : State} (h : s.rs = .paused ∨ (s.rs = .running ∧ s.phase = .poll)) : step s = pollStep s := by
  obtain hpaused | ⟨hrun, hpoll⟩ := h
  · simp only [step, State.nextAction, hpaused]
  · simp only [step, State.nextAction, hrun, hpoll]

theorem step_frameEnd {s : State} (hrun : s.rs = .running) (hslot : s.phase = .batch 0) : step s = endFrame s := by
  simp only [step, State.nextAction, hrun, hslot]

/-- With IPF at least 1 a poll is never refused: RS after it decides where the scheduler stands. -/
theorem pollStep_eq {s : State} (hipf : 1 ≤ s.cfg.ipf) :
    pollStep s = .next { s.polled s.nextPoll with
      phase := if (s.polled s.nextPoll).rs = .running then .batch s.cfg.ipf else .poll } := by
  obtain ⟨t, h⟩ := pollStep_answers hipf
  obtain ⟨hrun, -, rfl⟩ | ⟨hstopped, rfl⟩ := pollStep_next h
  · rw [h, if_pos hrun]
  · rw [h, if_neg hstopped]

/-- Settles O48: the poll taken is the head of the queue, and the queue's tail is left. -/
theorem frameStartsWithPoll : Obligations.FrameStartsWithPoll := by
  unfold Obligations.FrameStartsWithPoll
  intro s p rest hqueue hstart hipf
  have htail : s.polls.tail = rest := congrArg List.tail hqueue
  rw [step_poll hstart, pollStep_eq hipf, State.nextPoll_of_polls hqueue, State.polled, htail]
  rfl

/-- Settles O49, by the two states a poll can leave: at the start of a batch if RS is RUNNING, and before the next poll. -/
theorem pausedOnlyPolls : Obligations.PausedOnlyPolls := by
  unfold Obligations.PausedOnlyPolls
  intro s t hpaused h
  rw [step_poll (.inl hpaused)] at h
  have hkeys : ∀ p rest, s.polls = p :: rest → s.nextPoll.keys = p.keys := fun p rest hqueue =>
    congrArg Poll.keys (State.nextPoll_of_polls hqueue)
  obtain ⟨-, -, rfl⟩ | ⟨hstopped, rfl⟩ := pollStep_next h
  · exact ⟨rfl, hkeys, fun _ => rfl⟩
  · exact ⟨rfl, hkeys, fun hrun => absurd hrun hstopped⟩

/-- Natural subtraction stops at 0 as a timer does (60_exceptions.md R241). -/
theorem tickTimer_toNat (b : Byte) : (tickTimer b).toNat = b.toNat - 1 := by
  unfold tickTimer
  split
  next hzero => rw [hzero]; rfl
  next hpos => bv_omega

/-- Settles O50: the end of a frame is the render, then the tick of both timers. -/
theorem frameEndRendersAndTicks : Obligations.FrameEndRendersAndTicks := by
  unfold Obligations.FrameEndRendersAndTicks
  intro s hrun hslot
  exact ⟨tickTimer s.dt, tickTimer s.st, tickTimer_toNat s.dt, tickTimer_toNat s.st, step_frameEnd hrun hslot⟩

/-- Settles O53: a terminal state's next action is none. -/
theorem quitAndFaultedAreTerminal : Obligations.QuitAndFaultedAreTerminal := by
  unfold Obligations.QuitAndFaultedAreTerminal
  exact fun s hterminal => step_terminal hterminal

/-! ### One slot of a batch -/

/-- What a slot of a batch leaves: the keypad, the renderer's copy and the inputs of later polls always, DT except where it
runs FX15 and ST except where it runs FX18. -/
structure SlotFrame (s t : State) : Prop where
  keys : t.keys = s.keys
  shown : t.shown = s.shown
  renders : t.renders = s.renders
  polls : t.polls = s.polls
  pollCount : t.pollCount = s.pollCount
  delay : t.dt = s.dt ∨ ∃ x, s.Decodes (.ldToDt x) ∧ t.dt = s.reg x
  sound : t.st = s.st ∨ ∃ x, s.Decodes (.ldToSt x) ∧ t.st = s.reg x

theorem slotFrame_refl (s : State) : SlotFrame s s := ⟨rfl, rfl, rfl, rfl, rfl, .inl rfl, .inl rfl⟩

/-- `s` is in a batch with `left` slots to run, or a slot of that batch has taken a fault. -/
def State.InBatch (left : Nat) (s : State) : Prop :=
  (s.rs = .faulted ∧ s.fault ≠ .none) ∨ (s.rs = .running ∧ s.phase = .batch left)

theorem exec_keeps_polls {i : Instr} {s t : State} (h : exec i s = .next t) :
    t.polls = s.polls ∧ t.pollCount = s.pollCount := by
  obtain ⟨info, -, rfl⟩ | hframe := exec_next h
  · exact ⟨State.raise_polls s _ _, State.raise_pollCount s _ _⟩
  · exact hframe.polls

section
variable {s t : State} {left : Nat}

theorem exec_slotFrame {i : Instr} (hd : s.Decodes i) (h : exec i (s.afterFetch left) = .next t) : SlotFrame s t := by
  obtain ⟨-, hdelay, hsound, hkeys, hshown, hrenders⟩ := exec_devices h
  obtain ⟨hpolls, hpollCount⟩ := exec_keeps_polls h
  refine ⟨hkeys, hshown, hrenders, hpolls, hpollCount, ?_, ?_⟩
  · by_cases hwrites : ((s.afterFetch left).footprintOf i).delay
    · obtain ⟨x, rfl⟩ := State.delay_of_footprintOf hwrites
      cases h
      exact .inr ⟨x, hd, rfl⟩
    · exact .inl (hdelay hwrites)
  · by_cases hwrites : ((s.afterFetch left).footprintOf i).sound
    · obtain ⟨x, rfl⟩ := State.sound_of_footprintOf hwrites
      cases h
      exact .inr ⟨x, hd, rfl⟩
    · exact .inl (hsound hwrites)

/-- An execute phase either takes a fault or leaves RS and the slots left as the fetch set them. -/
theorem exec_inBatch {i : Instr} (hrun : s.rs = .running) (h : exec i (s.afterFetch left) = .next t) : t.InBatch left := by
  obtain ⟨info, hfault, rfl⟩ | hframe := exec_next h
  · exact .inl ⟨rfl, hfault⟩
  · have hrs : t.rs = s.rs := hframe.runState (by rw [State.footprintOf_fault]; exact not_false)
    exact .inr ⟨hrs.trans hrun, hframe.phase⟩

/-- One slot of a running batch: a fault or a slot used up, and the slot's frame either way. -/
theorem step_slot (hrun : s.rs = .running) (hslot : s.phase = .batch (left + 1)) (h : step s = .next t) :
    t.InBatch left ∧ SlotFrame s t := by
  rw [step_batch hrun hslot] at h
  cases hf : s.fetchFails with
  | true =>
    rw [stepInstr_of_fetchFails hf] at h
    cases h
    exact ⟨.inl ⟨rfl, nofun⟩, { slotFrame_refl s with }⟩
  | false =>
    cases hd : decode s.cfg.dispatchStrict s.fetchWord with
    | instr i =>
      rw [stepInstr_of_instr hf hd] at h
      exact ⟨exec_inBatch hrun h, exec_slotFrame ⟨State.fetchFails_eq_false.1 hf, hd⟩ h⟩
    | unrecognized why =>
      rw [stepInstr_of_unrecognized hf hd] at h
      cases h
      exact ⟨.inr ⟨hrun, rfl⟩, { slotFrame_refl s with }⟩

/-- The same from a batch that may have taken a fault: FAULTED is terminal, so the state stays as the fault left it. -/
theorem step_inBatch (hs : s.InBatch (left + 1)) (h : step s = .next t) : t.InBatch left ∧ SlotFrame s t := by
  obtain ⟨hfaulted, hfault⟩ | ⟨hrun, hslot⟩ := hs
  · cases (step_terminal (.inr hfaulted)).symm.trans h
    exact ⟨.inl ⟨hfaulted, hfault⟩, slotFrame_refl s⟩
  · exact step_slot hrun hslot h

end

/-- Settles O52: a terminal state and the end of a frame keep RS, and a slot that changes it has taken a fault. -/
theorem runStateChangesOnlyByPollOrFault : Obligations.RunStateChangesOnlyByPollOrFault := by
  unfold Obligations.RunStateChangesOnlyByPollOrFault
  intro s t _ h hne
  obtain ⟨-, rfl⟩ | ⟨hpoll, -⟩ | ⟨-, -, rfl⟩ | ⟨left, hrun, hslot, -⟩ := step_next h
  · exact absurd rfl hne
  · exact .inl hpoll
  · exact absurd rfl hne
  · obtain hfault | ⟨hrun', -⟩ := (step_slot hrun hslot h).1
    · exact .inr ⟨hrun, hfault⟩
    · exact absurd (hrun'.trans hrun.symm) hne

/-! ### The run of a batch -/

/-- A run that answers a next state has a first step that does. -/
theorem run_succ_next {M : Host.Core} {s t : M.State} {n : Nat} (h : M.run (n + 1) s = .next t) :
    ∃ u, M.step s = .next u ∧ M.run n u = .next t := by
  rw [Host.Core.run] at h
  split at h
  next u hstep => exact ⟨u, hstep, h⟩
  all_goals cases h

/-- A run keeps what each of its steps keeps. -/
theorem run_keeps {M : Host.Core} {α : Type} (get : M.State → α) {n : Nat} {s t : M.State} (h : M.run n s = .next t)
    (hstep : ∀ k u v, k < n → M.run k s = .next u → M.step u = .next v → get v = get u) : get t = get s := by
  induction n generalizing s with
  | zero => cases h; rfl
  | succ n ih =>
    obtain ⟨u, hfirst, hrest⟩ := run_succ_next h
    have hlater : get t = get u := ih hrest fun k v w hk hv hw =>
      hstep (k + 1) v w (Nat.succ_lt_succ hk) ((run_succ_of_step hfirst k).trans hv) hw
    exact hlater.trans (hstep 0 s u (Nat.succ_pos n) rfl hfirst)

section
variable {s t : State} {left : Nat}

/-- Each step of a batch takes one of its slots. -/
theorem run_inBatch {n : Nat} (hs : s.InBatch (left + n)) (h : Sys2Proof.core.run n s = .next t) : t.InBatch left := by
  induction n generalizing s with
  | zero => cases h; exact hs
  | succ n ih =>
    obtain ⟨u, hfirst, hrest⟩ := run_succ_next (M := Sys2Proof.core) h
    exact ih (step_inBatch hs hfirst).1 hrest

/-- A batch keeps what each of its slots keeps, where the slot starts in the batch and leaves the slot's frame. -/
theorem batch_keeps {α : Type} (get : State → α) (hs : s.InBatch left) (h : Sys2Proof.core.run left s = .next t)
    (hslot : ∀ k u v, k < left → Sys2Proof.core.run k s = .next u → SlotFrame u v → get v = get u) : get t = get s :=
  run_keeps (M := Sys2Proof.core) get h fun k u v hk hu hv => by
    have hsplit : left - k - 1 + 1 + k = left := by omega
    exact hslot k u v hk hu (step_inBatch (run_inBatch (hsplit.symm ▸ hs) hu) hv).2

end

/-- Settles O51: a batch that ends with no fault recorded is at its last slot, and it keeps what its slots keep: a timer only
where none of them runs the instruction that writes it. -/
theorem batchRunsAllItsSlots : Obligations.BatchRunsAllItsSlots := by
  unfold Obligations.BatchRunsAllItsSlots
  refine ⟨fun left s t hrun hslot _ h hfault => ?_, fun left s t hrun hslot h => ?_⟩
  · have hs : s.InBatch left := .inr ⟨hrun, hslot⟩
    obtain ⟨-, hfaulted⟩ | ⟨hrun', hslot'⟩ := run_inBatch (left := 0) ((Nat.zero_add left).symm ▸ hs) h
    · exact absurd hfault hfaulted
    · refine ⟨hslot', hrun', batch_keeps State.keys hs h fun _ _ _ _ _ hframe => hframe.keys,
        batch_keeps State.shown hs h fun _ _ _ _ _ hframe => hframe.shown,
        batch_keeps State.renders hs h fun _ _ _ _ _ hframe => hframe.renders,
        batch_keeps State.polls hs h fun _ _ _ _ _ hframe => hframe.polls,
        batch_keeps State.pollCount hs h fun _ _ _ _ _ hframe => hframe.pollCount,
        fun hnone => batch_keeps State.dt hs h fun k u _ hk hu hframe => hframe.delay.resolve_right ?_,
        fun hnone => batch_keeps State.st hs h fun k u _ hk hu hframe => hframe.sound.resolve_right ?_⟩
      all_goals exact fun ⟨x, hd, _⟩ => hnone k u hk hu x hd
  · obtain ⟨-, hframe⟩ := step_slot hrun hslot h
    exact ⟨hframe.delay, hframe.sound⟩

end Sys2Proof.Machine
end

section
/-! PROOFS. The launches that do not start the core (60_exceptions.md R239, R247; 70_reset_and_hazards.md R273). -/

namespace Sys2Proof.Machine

/-- With the host set up and an image read, its length is checked first and IPF after it (log entry 11). -/
theorem boot_image (cfg : Config) (rom : List Byte) :
    boot cfg ⟨true, some rom⟩ =
      if maxRom < rom.length then .refused .romLoadFailure
      else if cfg.ipf = 0 then .refused .ipfZero
      else .next ((State.resetWith cfg).loadRom rom) := rfl

/-- Settles O56: the setup and the image's presence decide alone; an image read is refused by its length or by IPF. -/
theorem bootRefusesBadLaunch : Obligations.BootRefusesBadLaunch := by
  unfold Obligations.BootRefusesBadLaunch
  intro cfg rom
  refine ⟨rfl, fun hlong => ?_, fun hfits hipf => ?_, rfl⟩
  · rw [boot_image]
    exact if_pos hlong
  · rw [boot_image]
    exact (if_neg (Nat.not_lt.2 hfits)).trans (if_pos hipf)

end Sys2Proof.Machine
end
